-- ==== Sys2Proof/Modes.lean ====
section
/-!
DEFINITION. The small closed sets of names the spec uses: rounding modes, overflow modes, TruncatedPart values, the sign
of a discarded part, and the five exceptions. Their code numbers are in Decode.lean (fields of a command) and
Machine/Operands.lean, Machine/Flags.lean (values in registers).
-/

namespace Sys2Proof

/-- The eight rounding modes, in the order of 30_encoding.md R59. -/
inductive RoundingMode where
  | up | down | ceiling | floor | halfUp | halfDown | halfEven | unnecessary
deriving DecidableEq, Repr

/-- The two overflow modes of R58: `c = 0` is UNCHECKED (the result wraps), `c = 1` is CHECKED (OVERFLOW is raised). -/
inductive OverflowMode where
  | unchecked | checked
deriving DecidableEq, Repr

/-- A discarded remainder relative to half the divisor (R60, R82). -/
inductive TruncatedPart where
  | zero | lessThanHalfNonzero | equalToHalf | greaterThanHalf
deriving DecidableEq, Repr

/-- The sign of a discarded part, -1 or +1 (R83). -/
inductive Sign where
  | negative | positive
deriving DecidableEq, Repr

/-- The five exceptions of 60_exceptions.md R191. -/
inductive Exn where
  | overflow | divByZero | roundingNecessary | invalidDomain | illegalCommand
deriving DecidableEq, Repr

end Sys2Proof
end

