-- ==== Sys2Proof/Word.lean ====
section
/-!
DEFINITION. The word types of D4J-CORE and the two bounds of a signed 64-bit integer (spec 00_scope.md R6, R7, R8).
-/

namespace Sys2Proof

/-- A 64-bit pattern, the contents of a general register (R21). It has no type of its own: a command reads it as
signed or unsigned. -/
abbrev Word := BitVec 64

/-- A command: every command is one 32-bit word (R55). -/
abbrev CommandWord := BitVec 32

/-- The number of a general register, 0 to 15 (R21). -/
abbrev Reg := Fin 16

/-- `MIN_VALUE` of R7, the least signed 64-bit integer. -/
abbrev minValue : Int := -9223372036854775808

/-- `MAX_VALUE` of R7, the greatest signed 64-bit integer. -/
abbrev maxValue : Int := 9223372036854775807

end Sys2Proof
end

