-- ==== Sys2Proof/Syntax.lean ====
section
/-!
DEFINITION. The 32 commands of 30_encoding.md R62 (spec/opcode_table.json), one constructor per row. Operands stand in
the order of the assembler text (R66): destination, sources, then the qualifiers `s`, `s2`, `rm`, `c` the row uses.
A scale is a Nat here; that it is at most 18 is the check of WellFormed.lean (R64 (c), (d)).
-/

namespace Sys2Proof

inductive Instr where
  -- 41_checked64.md
  | add (rd rs1 rs2 : Reg) (c : OverflowMode)
  | sub (rd rs1 rs2 : Reg) (c : OverflowMode)
  | mul (rd rs1 rs2 : Reg) (c : OverflowMode)
  | div (rd rs1 rs2 : Reg) (c : OverflowMode)
  | abs (rd rs1 : Reg) (c : OverflowMode)
  | neg (rd rs1 : Reg) (c : OverflowMode)
  -- 42_unsigned64.md
  | ucmp (rd rs1 rs2 : Reg)
  | ult (rd rs1 rs2 : Reg)
  | ugt (rd rs1 rs2 : Reg)
  | ule (rd rs1 rs2 : Reg)
  | udiv (rd rs1 rs2 : Reg)
  -- 43_wide128.md
  | mullo (rd rs1 rs2 : Reg)
  | mulhiu (rd rs1 rs2 : Reg)
  | mulhis (rd rs1 rs2 : Reg)
  | divwq (rd rs1 rs2 rs3 : Reg) (c : OverflowMode)
  | divwr (rd rs1 rs2 rs3 : Reg)
  | ldsf (rd : Reg) (sc : Nat)
  -- 40_rounding.md
  | rinc (rd rs1 rs2 rs3 : Reg) (rm : RoundingMode)
  | rcls (rd rs1 rs2 : Reg)
  | rcls2 (rd rs1 rs2 : Reg)
  | rclsw (rd rs1 rs2 rs3 : Reg)
  | rminv (rd : Reg) (rm : RoundingMode)
  -- 44_division.md
  | divs (rd rs1 rs2 : Reg) (sc : Nat) (rm : RoundingMode) (c : OverflowMode)
  -- 45_multiplicative.md
  | muls (rd rs1 rs2 : Reg) (sc : Nat) (rm : RoundingMode) (c : OverflowMode)
  | sqrs (rd rs1 : Reg) (sc : Nat) (rm : RoundingMode) (c : OverflowMode)
  -- 46_root_shift.md
  | sqrts (rd rs1 : Reg) (sc : Nat) (rm : RoundingMode)
  | shl (rd rs1 rs2 : Reg) (rm : RoundingMode) (c : OverflowMode)
  | shr (rd rs1 rs2 : Reg) (rm : RoundingMode) (c : OverflowMode)
  -- 47_pow10_additive.md
  | mulp10 (rd rs1 rs2 : Reg) (rm : RoundingMode) (c : OverflowMode)
  | divp10 (rd rs1 rs2 : Reg) (rm : RoundingMode) (c : OverflowMode)
  | adds (rd rs1 rs2 : Reg) (sc sc2 : Nat) (rm : RoundingMode) (c : OverflowMode)
  | subs (rd rs1 rs2 : Reg) (sc sc2 : Nat) (rm : RoundingMode) (c : OverflowMode)
deriving DecidableEq, Repr

end Sys2Proof
end

