-- ==== Sys2Proof/WellFormed.lean ====
section
/-!
DEFINITION. Which `Instr` terms are commands: a scale is 0 to 18 (R58, R64 (c)), and so is the second scale of format D
(R57, R64 (d)). Register numbers, rounding modes and overflow modes are in range by their types.
-/

namespace Sys2Proof

/-- A legal scale (R2, R58): 0 to 18. -/
def scaleOk (sc : Nat) : Bool := decide (sc ≤ 18)

/-- The term spells a command. -/
def Instr.wf : Instr → Bool
  | .add _ _ _ _ => true
  | .sub _ _ _ _ => true
  | .mul _ _ _ _ => true
  | .div _ _ _ _ => true
  | .abs _ _ _ => true
  | .neg _ _ _ => true
  | .ucmp _ _ _ => true
  | .ult _ _ _ => true
  | .ugt _ _ _ => true
  | .ule _ _ _ => true
  | .udiv _ _ _ => true
  | .mullo _ _ _ => true
  | .mulhiu _ _ _ => true
  | .mulhis _ _ _ => true
  | .divwq _ _ _ _ _ => true
  | .divwr _ _ _ _ => true
  | .ldsf _ sc => scaleOk sc
  | .rinc _ _ _ _ _ => true
  | .rcls _ _ _ => true
  | .rcls2 _ _ _ => true
  | .rclsw _ _ _ _ => true
  | .rminv _ _ => true
  | .divs _ _ _ sc _ _ => scaleOk sc
  | .muls _ _ _ sc _ _ => scaleOk sc
  | .sqrs _ _ sc _ _ => scaleOk sc
  | .sqrts _ _ sc _ => scaleOk sc
  | .shl _ _ _ _ _ => true
  | .shr _ _ _ _ _ => true
  | .mulp10 _ _ _ _ _ => true
  | .divp10 _ _ _ _ _ => true
  | .adds _ _ _ sc sc2 _ _ => scaleOk sc && scaleOk sc2
  | .subs _ _ _ sc sc2 _ _ => scaleOk sc && scaleOk sc2

end Sys2Proof
end

