-- ==== Sys2Proof/Decode.lean ====
section
/-!
DEFINITION. Decoding and encoding of command words (30_encoding.md): the eight fields (R56), the codes of the qualifiers
(R58, R59), the opcode map (R62), the checks (R63 to R65), the decoder, and after it the encoder.
-/

namespace Sys2Proof

/-! ### The fields (R56) -/

/-- The eight fields of a command word (R56), each in its own range. An encoder leaves a field it does not use at zero
(R63). -/
structure Fields where
  op : Fin 64
  rd : Fin 16 := 0
  rs1 : Fin 16 := 0
  rs2 : Fin 16 := 0
  t : Fin 32 := 0
  s : Fin 32 := 0
  rm : Fin 8 := 0
  c : Fin 2 := 0
deriving DecidableEq, Repr

/-- The fields of a word: `w[31:26]`, `w[25:22]`, `w[21:18]`, `w[17:14]`, `w[13:9]`, `w[8:4]`, `w[3:1]`, `w[0]` (R56). -/
def fieldsOf (w : CommandWord) : Fields :=
  { op := Fin.ofNat 64 (w.toNat / 2 ^ 26)
    rd := Fin.ofNat 16 (w.toNat / 2 ^ 22)
    rs1 := Fin.ofNat 16 (w.toNat / 2 ^ 18)
    rs2 := Fin.ofNat 16 (w.toNat / 2 ^ 14)
    t := Fin.ofNat 32 (w.toNat / 2 ^ 9)
    s := Fin.ofNat 32 (w.toNat / 2 ^ 4)
    rm := Fin.ofNat 8 (w.toNat / 2)
    c := Fin.ofNat 2 w.toNat }

/-- The word of eight fields, by the sum of R56. -/
def assemble (f : Fields) : CommandWord :=
  BitVec.ofNat 32 (f.op.val * 2 ^ 26 + f.rd.val * 2 ^ 22 + f.rs1.val * 2 ^ 18 + f.rs2.val * 2 ^ 14
    + f.t.val * 2 ^ 9 + f.s.val * 2 ^ 4 + f.rm.val * 2 + f.c.val)

/-! ### The codes of the qualifiers (R58, R59) and the third source register (R57) -/

/-- The `rm` code of a rounding mode (R59). -/
def RoundingMode.code : RoundingMode → Fin 8
  | .up => 0
  | .down => 1
  | .ceiling => 2
  | .floor => 3
  | .halfUp => 4
  | .halfDown => 5
  | .halfEven => 6
  | .unnecessary => 7

/-- The rounding mode of an `rm` code (R59: all eight values are legal). -/
def RoundingMode.ofCode : Fin 8 → RoundingMode
  | 0 => .up
  | 1 => .down
  | 2 => .ceiling
  | 3 => .floor
  | 4 => .halfUp
  | 5 => .halfDown
  | 6 => .halfEven
  | 7 => .unnecessary

/-- The `c` bit of an overflow mode (R56, R58). -/
def OverflowMode.code : OverflowMode → Fin 2
  | .unchecked => 0
  | .checked => 1

/-- The overflow mode of a `c` bit (R56, R58). -/
def OverflowMode.ofCode : Fin 2 → OverflowMode
  | 0 => .unchecked
  | 1 => .checked

/-- The third source register of format R4: `rs3 = t[3:0]` (R57). -/
def Fields.rs3 (f : Fields) : Reg := Fin.ofNat 16 f.t.val

/-- The `t` field that names a third source register: `t[3:0] = rs3`, `t[4] = 0` (R57). -/
def tOfReg (r : Reg) : Fin 32 := Fin.ofNat 32 r.val

/-- The 5-bit field of a scale (R56). -/
def scaleField (sc : Nat) : Fin 32 := Fin.ofNat 32 sc

/-! ### The opcode map (R62) -/

/-- The five formats of R57. -/
inductive Format where
  | r1 | r2 | r3 | r4 | d
deriving DecidableEq, Repr

/-- A row of the opcode map: its format, the qualifiers it uses, and the command its fields spell (R62). -/
structure OpcodeRow where
  format : Format
  usesS : Bool
  usesRm : Bool
  usesC : Bool
  build : Fields → Instr

/-- The qualifier `rm` of a word. -/
def Fields.mode (f : Fields) : RoundingMode := RoundingMode.ofCode f.rm

/-- The qualifier `c` of a word. -/
def Fields.chk (f : Fields) : OverflowMode := OverflowMode.ofCode f.c

/-- The row of an opcode, none for an unassigned one (R62, R64 (a)). -/
def opcodeRow (op : Fin 64) : Option OpcodeRow :=
  match op.val with
  | 0x01 => some ⟨.r3, false, false, true, fun f => .add f.rd f.rs1 f.rs2 f.chk⟩
  | 0x02 => some ⟨.r3, false, false, true, fun f => .sub f.rd f.rs1 f.rs2 f.chk⟩
  | 0x03 => some ⟨.r3, false, false, true, fun f => .mul f.rd f.rs1 f.rs2 f.chk⟩
  | 0x04 => some ⟨.r3, false, false, true, fun f => .div f.rd f.rs1 f.rs2 f.chk⟩
  | 0x05 => some ⟨.r2, false, false, true, fun f => .abs f.rd f.rs1 f.chk⟩
  | 0x06 => some ⟨.r2, false, false, true, fun f => .neg f.rd f.rs1 f.chk⟩
  | 0x08 => some ⟨.r3, false, false, false, fun f => .ucmp f.rd f.rs1 f.rs2⟩
  | 0x09 => some ⟨.r3, false, false, false, fun f => .ult f.rd f.rs1 f.rs2⟩
  | 0x0A => some ⟨.r3, false, false, false, fun f => .ugt f.rd f.rs1 f.rs2⟩
  | 0x0B => some ⟨.r3, false, false, false, fun f => .ule f.rd f.rs1 f.rs2⟩
  | 0x0C => some ⟨.r3, false, false, false, fun f => .udiv f.rd f.rs1 f.rs2⟩
  | 0x10 => some ⟨.r3, false, false, false, fun f => .mullo f.rd f.rs1 f.rs2⟩
  | 0x11 => some ⟨.r3, false, false, false, fun f => .mulhiu f.rd f.rs1 f.rs2⟩
  | 0x12 => some ⟨.r3, false, false, false, fun f => .mulhis f.rd f.rs1 f.rs2⟩
  | 0x13 => some ⟨.r4, false, false, true, fun f => .divwq f.rd f.rs1 f.rs2 f.rs3 f.chk⟩
  | 0x14 => some ⟨.r4, false, false, false, fun f => .divwr f.rd f.rs1 f.rs2 f.rs3⟩
  | 0x15 => some ⟨.r1, true, false, false, fun f => .ldsf f.rd f.s.val⟩
  | 0x18 => some ⟨.r4, false, true, false, fun f => .rinc f.rd f.rs1 f.rs2 f.rs3 f.mode⟩
  | 0x19 => some ⟨.r3, false, false, false, fun f => .rcls f.rd f.rs1 f.rs2⟩
  | 0x1A => some ⟨.r3, false, false, false, fun f => .rcls2 f.rd f.rs1 f.rs2⟩
  | 0x1B => some ⟨.r4, false, false, false, fun f => .rclsw f.rd f.rs1 f.rs2 f.rs3⟩
  | 0x1C => some ⟨.r1, false, true, false, fun f => .rminv f.rd f.mode⟩
  | 0x20 => some ⟨.r3, true, true, true, fun f => .divs f.rd f.rs1 f.rs2 f.s.val f.mode f.chk⟩
  | 0x21 => some ⟨.r3, true, true, true, fun f => .muls f.rd f.rs1 f.rs2 f.s.val f.mode f.chk⟩
  | 0x22 => some ⟨.r2, true, true, true, fun f => .sqrs f.rd f.rs1 f.s.val f.mode f.chk⟩
  | 0x23 => some ⟨.r2, true, true, false, fun f => .sqrts f.rd f.rs1 f.s.val f.mode⟩
  | 0x24 => some ⟨.r3, false, true, true, fun f => .shl f.rd f.rs1 f.rs2 f.mode f.chk⟩
  | 0x25 => some ⟨.r3, false, true, true, fun f => .shr f.rd f.rs1 f.rs2 f.mode f.chk⟩
  | 0x26 => some ⟨.r3, false, true, true, fun f => .mulp10 f.rd f.rs1 f.rs2 f.mode f.chk⟩
  | 0x27 => some ⟨.r3, false, true, true, fun f => .divp10 f.rd f.rs1 f.rs2 f.mode f.chk⟩
  | 0x28 => some ⟨.d, true, true, true, fun f => .adds f.rd f.rs1 f.rs2 f.s.val f.t.val f.mode f.chk⟩
  | 0x29 => some ⟨.d, true, true, true, fun f => .subs f.rd f.rs1 f.rs2 f.s.val f.t.val f.mode f.chk⟩
  | _ => none

/-! ### The decoder (R65) -/

/-- Why a word is illegal: the four classes (a) to (d) of R64. All of them raise ILLEGAL_COMMAND alike. -/
inductive IllegalWord where
  /-- (a) the opcode is not in the table of R62 -/
  | unassignedOpcode
  /-- (b) a field the command does not use is not zero (R63) -/
  | unusedFieldNotZero
  /-- (c) the command uses `s` and `s > 18` -/
  | scaleAbove18
  /-- (d) format D and `t > 18` -/
  | secondScaleAbove18
deriving DecidableEq, Repr

/-- The format checks of R65, in its order: what R57 asks of the register fields and of `t`. -/
def formatCheck : Format → Fields → Option IllegalWord
  | .r1, f => if f.rs1 ≠ 0 ∨ f.rs2 ≠ 0 ∨ f.t ≠ 0 then some .unusedFieldNotZero else none
  | .r2, f => if f.rs2 ≠ 0 ∨ f.t ≠ 0 then some .unusedFieldNotZero else none
  | .r3, f => if f.t ≠ 0 then some .unusedFieldNotZero else none
  | .r4, f => if f.t.val > 15 then some .unusedFieldNotZero else none
  | .d, f => if f.t.val > 18 then some .secondScaleAbove18 else none

/-- All checks of R65 on a word of an assigned opcode, none when they pass. They look at the word alone. -/
def rowCheck (row : OpcodeRow) (f : Fields) : Option IllegalWord :=
  match formatCheck row.format f with
  | some e => some e
  | none =>
    if row.usesS = false ∧ f.s ≠ 0 then some .unusedFieldNotZero
    else if row.usesS = true ∧ f.s.val > 18 then some .scaleAbove18
    else if row.usesRm = false ∧ f.rm ≠ 0 then some .unusedFieldNotZero
    else if row.usesC = false ∧ f.c ≠ 0 then some .unusedFieldNotZero
    else none

/-- Decoding, total on 32-bit words: the command with its fields, or why the word is illegal (R65). -/
def decode (w : CommandWord) : Except IllegalWord Instr :=
  match opcodeRow (fieldsOf w).op with
  | none => .error .unassignedOpcode
  | some row =>
    match rowCheck row (fieldsOf w) with
    | some e => .error e
    | none => .ok (row.build (fieldsOf w))

/-- The instruction of a table word for the host. A command is one 32-bit quantity with no byte order (R41, R55), so
the word is the number itself; bits from `nbits` up are zero. -/
def decodeTableWord (nbits w : Nat) : Option Instr :=
  match decode (BitVec.ofNat 32 (w % 2 ^ nbits)) with
  | .ok i => some i
  | .error _ => none

/-! ### The encoder (R56, R57, R62) -/

/-- The fields of a command; a field it does not use is zero (R63). -/
def encodeFields : Instr → Fields
  | .add rd rs1 rs2 c => { op := 0x01, rd := rd, rs1 := rs1, rs2 := rs2, c := c.code }
  | .sub rd rs1 rs2 c => { op := 0x02, rd := rd, rs1 := rs1, rs2 := rs2, c := c.code }
  | .mul rd rs1 rs2 c => { op := 0x03, rd := rd, rs1 := rs1, rs2 := rs2, c := c.code }
  | .div rd rs1 rs2 c => { op := 0x04, rd := rd, rs1 := rs1, rs2 := rs2, c := c.code }
  | .abs rd rs1 c => { op := 0x05, rd := rd, rs1 := rs1, c := c.code }
  | .neg rd rs1 c => { op := 0x06, rd := rd, rs1 := rs1, c := c.code }
  | .ucmp rd rs1 rs2 => { op := 0x08, rd := rd, rs1 := rs1, rs2 := rs2 }
  | .ult rd rs1 rs2 => { op := 0x09, rd := rd, rs1 := rs1, rs2 := rs2 }
  | .ugt rd rs1 rs2 => { op := 0x0A, rd := rd, rs1 := rs1, rs2 := rs2 }
  | .ule rd rs1 rs2 => { op := 0x0B, rd := rd, rs1 := rs1, rs2 := rs2 }
  | .udiv rd rs1 rs2 => { op := 0x0C, rd := rd, rs1 := rs1, rs2 := rs2 }
  | .mullo rd rs1 rs2 => { op := 0x10, rd := rd, rs1 := rs1, rs2 := rs2 }
  | .mulhiu rd rs1 rs2 => { op := 0x11, rd := rd, rs1 := rs1, rs2 := rs2 }
  | .mulhis rd rs1 rs2 => { op := 0x12, rd := rd, rs1 := rs1, rs2 := rs2 }
  | .divwq rd rs1 rs2 rs3 c => { op := 0x13, rd := rd, rs1 := rs1, rs2 := rs2, t := tOfReg rs3, c := c.code }
  | .divwr rd rs1 rs2 rs3 => { op := 0x14, rd := rd, rs1 := rs1, rs2 := rs2, t := tOfReg rs3 }
  | .ldsf rd sc => { op := 0x15, rd := rd, s := scaleField sc }
  | .rinc rd rs1 rs2 rs3 rm => { op := 0x18, rd := rd, rs1 := rs1, rs2 := rs2, t := tOfReg rs3, rm := rm.code }
  | .rcls rd rs1 rs2 => { op := 0x19, rd := rd, rs1 := rs1, rs2 := rs2 }
  | .rcls2 rd rs1 rs2 => { op := 0x1A, rd := rd, rs1 := rs1, rs2 := rs2 }
  | .rclsw rd rs1 rs2 rs3 => { op := 0x1B, rd := rd, rs1 := rs1, rs2 := rs2, t := tOfReg rs3 }
  | .rminv rd rm => { op := 0x1C, rd := rd, rm := rm.code }
  | .divs rd rs1 rs2 sc rm c =>
    { op := 0x20, rd := rd, rs1 := rs1, rs2 := rs2, s := scaleField sc, rm := rm.code, c := c.code }
  | .muls rd rs1 rs2 sc rm c =>
    { op := 0x21, rd := rd, rs1 := rs1, rs2 := rs2, s := scaleField sc, rm := rm.code, c := c.code }
  | .sqrs rd rs1 sc rm c => { op := 0x22, rd := rd, rs1 := rs1, s := scaleField sc, rm := rm.code, c := c.code }
  | .sqrts rd rs1 sc rm => { op := 0x23, rd := rd, rs1 := rs1, s := scaleField sc, rm := rm.code }
  | .shl rd rs1 rs2 rm c => { op := 0x24, rd := rd, rs1 := rs1, rs2 := rs2, rm := rm.code, c := c.code }
  | .shr rd rs1 rs2 rm c => { op := 0x25, rd := rd, rs1 := rs1, rs2 := rs2, rm := rm.code, c := c.code }
  | .mulp10 rd rs1 rs2 rm c => { op := 0x26, rd := rd, rs1 := rs1, rs2 := rs2, rm := rm.code, c := c.code }
  | .divp10 rd rs1 rs2 rm c => { op := 0x27, rd := rd, rs1 := rs1, rs2 := rs2, rm := rm.code, c := c.code }
  | .adds rd rs1 rs2 sc sc2 rm c =>
    { op := 0x28, rd := rd, rs1 := rs1, rs2 := rs2, t := scaleField sc2, s := scaleField sc, rm := rm.code, c := c.code }
  | .subs rd rs1 rs2 sc sc2 rm c =>
    { op := 0x29, rd := rd, rs1 := rs1, rs2 := rs2, t := scaleField sc2, s := scaleField sc, rm := rm.code, c := c.code }

/-- The word of a command (R56). -/
def encode (i : Instr) : CommandWord := assemble (encodeFields i)

/-! ### The match and mask columns of R62

An independent reading of the same table: `decode` does not use it. -/

/-- The mnemonic column of R62. -/
def Instr.mnemonic : Instr → String
  | .add _ _ _ _ => "ADD"
  | .sub _ _ _ _ => "SUB"
  | .mul _ _ _ _ => "MUL"
  | .div _ _ _ _ => "DIV"
  | .abs _ _ _ => "ABS"
  | .neg _ _ _ => "NEG"
  | .ucmp _ _ _ => "UCMP"
  | .ult _ _ _ => "ULT"
  | .ugt _ _ _ => "UGT"
  | .ule _ _ _ => "ULE"
  | .udiv _ _ _ => "UDIV"
  | .mullo _ _ _ => "MULLO"
  | .mulhiu _ _ _ => "MULHIU"
  | .mulhis _ _ _ => "MULHIS"
  | .divwq _ _ _ _ _ => "DIVWQ"
  | .divwr _ _ _ _ => "DIVWR"
  | .ldsf _ _ => "LDSF"
  | .rinc _ _ _ _ _ => "RINC"
  | .rcls _ _ _ => "RCLS"
  | .rcls2 _ _ _ => "RCLS2"
  | .rclsw _ _ _ _ => "RCLSW"
  | .rminv _ _ => "RMINV"
  | .divs _ _ _ _ _ _ => "DIVS"
  | .muls _ _ _ _ _ _ => "MULS"
  | .sqrs _ _ _ _ _ => "SQRS"
  | .sqrts _ _ _ _ => "SQRTS"
  | .shl _ _ _ _ _ => "SHL"
  | .shr _ _ _ _ _ => "SHR"
  | .mulp10 _ _ _ _ _ => "MULP10"
  | .divp10 _ _ _ _ _ => "DIVP10"
  | .adds _ _ _ _ _ _ _ => "ADDS"
  | .subs _ _ _ _ _ _ _ => "SUBS"

/-- A row of R62: the mnemonic, the match, the mask, and whether the extra constraint has `s <= 18` and `t <= 18`. -/
structure MatchRow where
  mnemonic : String
  pattern : CommandWord
  mask : CommandWord
  needsScale : Bool := false
  needsSecondScale : Bool := false
deriving DecidableEq, Repr

/-- The match and mask columns of R62, row by row. -/
def matchTable : List MatchRow :=
  [ ⟨"ADD", 0x04000000, 0xFC003FFE, false, false⟩,
    ⟨"SUB", 0x08000000, 0xFC003FFE, false, false⟩,
    ⟨"MUL", 0x0C000000, 0xFC003FFE, false, false⟩,
    ⟨"DIV", 0x10000000, 0xFC003FFE, false, false⟩,
    ⟨"ABS", 0x14000000, 0xFC03FFFE, false, false⟩,
    ⟨"NEG", 0x18000000, 0xFC03FFFE, false, false⟩,
    ⟨"UCMP", 0x20000000, 0xFC003FFF, false, false⟩,
    ⟨"ULT", 0x24000000, 0xFC003FFF, false, false⟩,
    ⟨"UGT", 0x28000000, 0xFC003FFF, false, false⟩,
    ⟨"ULE", 0x2C000000, 0xFC003FFF, false, false⟩,
    ⟨"UDIV", 0x30000000, 0xFC003FFF, false, false⟩,
    ⟨"MULLO", 0x40000000, 0xFC003FFF, false, false⟩,
    ⟨"MULHIU", 0x44000000, 0xFC003FFF, false, false⟩,
    ⟨"MULHIS", 0x48000000, 0xFC003FFF, false, false⟩,
    ⟨"DIVWQ", 0x4C000000, 0xFC0021FE, false, false⟩,
    ⟨"DIVWR", 0x50000000, 0xFC0021FF, false, false⟩,
    ⟨"LDSF", 0x54000000, 0xFC3FFE0F, true, false⟩,
    ⟨"RINC", 0x60000000, 0xFC0021F1, false, false⟩,
    ⟨"RCLS", 0x64000000, 0xFC003FFF, false, false⟩,
    ⟨"RCLS2", 0x68000000, 0xFC003FFF, false, false⟩,
    ⟨"RCLSW", 0x6C000000, 0xFC0021FF, false, false⟩,
    ⟨"RMINV", 0x70000000, 0xFC3FFFF1, false, false⟩,
    ⟨"DIVS", 0x80000000, 0xFC003E00, true, false⟩,
    ⟨"MULS", 0x84000000, 0xFC003E00, true, false⟩,
    ⟨"SQRS", 0x88000000, 0xFC03FE00, true, false⟩,
    ⟨"SQRTS", 0x8C000000, 0xFC03FE01, true, false⟩,
    ⟨"SHL", 0x90000000, 0xFC003FF0, false, false⟩,
    ⟨"SHR", 0x94000000, 0xFC003FF0, false, false⟩,
    ⟨"MULP10", 0x98000000, 0xFC003FF0, false, false⟩,
    ⟨"DIVP10", 0x9C000000, 0xFC003FF0, false, false⟩,
    ⟨"ADDS", 0xA0000000, 0xFC000000, true, true⟩,
    ⟨"SUBS", 0xA4000000, 0xFC000000, true, true⟩ ]

/-- A word spells the command of a row: `(w & mask) == match`, and the extra constraint holds (R62). -/
def MatchRow.accepts (m : MatchRow) (w : CommandWord) : Bool :=
  decide (w &&& m.mask = m.pattern)
    && (!m.needsScale || decide (((w >>> 4) &&& 0x1F#32).toNat ≤ 18))
    && (!m.needsSecondScale || decide (((w >>> 9) &&& 0x1F#32).toNat ≤ 18))

end Sys2Proof
end

