-- ==== Sys2Proof/Machine/Flags.lean ====
section
/-!
DEFINITION. The exception codes (60_exceptions.md R191) and the sticky bits of FLAGS (10_state.md R23): how a raise sets
one and how CLRF clears them. No command computes any other flag (R23).
-/

namespace Sys2Proof.Machine

/-- The code of an exception (R191); code 0 means none. -/
def exnCode : Exn → BitVec 3
  | .overflow => 1
  | .divByZero => 2
  | .roundingNecessary => 3
  | .invalidDomain => 4
  | .illegalCommand => 5

/-- The exception of a code; codes 0, 6 and 7 name none (R191). -/
def exnOfCode (k : BitVec 3) : Option Exn :=
  if k = 1 then some .overflow
  else if k = 2 then some .divByZero
  else if k = 3 then some .roundingNecessary
  else if k = 4 then some .invalidDomain
  else if k = 5 then some .illegalCommand
  else none

/-- The FLAGS bit of the exception of code `k` is bit `k - 1` (R191, R193). -/
def flagBit (e : Exn) : BitVec 5 := 1#5 <<< ((exnCode e).toNat - 1)

/-- A raise sets its own bit and keeps the others (R193). -/
def raiseFlag (flags : BitVec 5) (e : Exn) : BitVec 5 := flags ||| flagBit e

/-- `sr.FLAGS & ~m`; only bits 4 to 0 of the mask matter (R43). -/
def clearFlags (flags : BitVec 5) (m : Word) : BitVec 5 := flags &&& ~~~(m.setWidth 5)

/-- The sticky bit of one exception class. -/
def flagOf (flags : BitVec 5) (e : Exn) : Bool := flags.getLsbD ((exnCode e).toNat - 1)

end Sys2Proof.Machine
end

