-- ==== Sys2Proof/Machine/Operands.lean ====
section
/-!
DEFINITION. The readings of a register operand (00_scope.md R8, 43_wide128.md R125) and the patterns of small results
(30_encoding.md R60, R61).
-/

namespace Sys2Proof.Machine

/-- `S(w)`: the pattern read as a signed two's-complement integer (R8). -/
def signedOf (w : Word) : Int := w.toInt

/-- `U(w)`: the pattern read as an unsigned integer (R8). -/
def unsignedOf (w : Word) : Nat := w.toNat

/-- `wrap64(v)`: the 64-bit pattern `v mod 2^64` (R8). -/
def wrap64 (v : Int) : Word := BitVec.ofInt 64 v

/-- `hi:lo`: the 128-bit unsigned integer `U(hi) * 2^64 + U(lo)` (R8, R125). -/
def wideOf (hi lo : Word) : Nat := unsignedOf hi * 2 ^ 64 + unsignedOf lo

/-- A result lies in the signed 64-bit range (R7, R85). -/
def inRange (v : Int) : Bool := decide (minValue ≤ v ∧ v ≤ maxValue)

/-- The sign a register operand carries for RINC: negative exactly when `S(w) < 0`; zero counts as positive (R87). -/
def signOf (w : Word) : Sign := if signedOf w < 0 then .negative else .positive

/-- -1 or +1 (R83). -/
def signValue : Sign → Int
  | .negative => -1
  | .positive => 1

/-- The code of a TruncatedPart (R60). -/
def partCode : TruncatedPart → Nat
  | .zero => 0
  | .lessThanHalfNonzero => 1
  | .equalToHalf => 2
  | .greaterThanHalf => 3

/-- The TruncatedPart of a code, none for a code above 3 (R60, R87). -/
def partOfCode : Nat → Option TruncatedPart
  | 0 => some .zero
  | 1 => some .lessThanHalfNonzero
  | 2 => some .equalToHalf
  | 3 => some .greaterThanHalf
  | _ => none

/-- A TruncatedPart in a register: the pattern of its code, upper 62 bits zero (R60). -/
def partWord (p : TruncatedPart) : Word := BitVec.ofNat 64 (partCode p)

/-- A rounding-mode code in a register: upper 61 bits zero (R61). -/
def modeWord (rm : RoundingMode) : Word := BitVec.ofNat 64 (RoundingMode.code rm).val

/-- A truth value in a register: 1 for true, 0 for false (R61). -/
def truthWord (b : Bool) : Word := if b then 1 else 0

end Sys2Proof.Machine
end

