-- ==== Sys2Proof/Config.lean ====
section
/-!
DEFINITION. What the spec leaves to the implementation: the parameter RESET_GPR of 92_eei_decisions.md (rule R28, D15,
U1). It has no body, so nothing can be proved about its values and every theorem holds for every draw.
The other open parameter, the latency LAT (R218), affects no result and is left out (log entry 6).
-/

namespace Sys2Proof

/-- RESET_GPR: `resetGpr n r` is the unspecified pattern general register `r` holds after the `n`-th RESET (`n = 0` for
the state right after power-on reset). DESIGN CHOICE, unsafe, log entry 1: the spec gives no value. -/
opaque Config.resetGpr : Nat → Reg → Word

end Sys2Proof
end

