-- ==== Sys2Proof/Machine/State.lean ====
section
/-!
DEFINITION. The state of D4J-CORE as plain data (10_state.md R20 to R28), the host operations (20_memory.md R43), the
outcomes that stop the machine (none is ever reached), and the state after reset.
-/

namespace Sys2Proof.Machine

/-- The six host operations (R43). Their arguments are exactly what the interface can express (R45): a 4-bit register
number, a 2-bit status register number, a 64-bit pattern, a 32-bit command word. -/
inductive HostOp where
  /-- `WR i, w` -/
  | wr (i : Reg) (w : Word)
  /-- `RD i` -/
  | rd (i : Reg)
  /-- `CMD w` -/
  | cmd (w : CommandWord)
  /-- `RDS k` -/
  | rds (k : Fin 4)
  /-- `CLRF m` -/
  | clrf (m : Word)
  /-- `RESET` -/
  | reset
deriving DecidableEq, Repr

/-- What a host operation returns (the last column of R43). -/
inductive Reply where
  /-- WR, CLRF and RESET return nothing -/
  | nothing
  /-- RD and RDS return 64 bits -/
  | value (w : Word)
  /-- CMD returns a 3-bit response: 0 completed, 1 to 5 the exception raised -/
  | response (code : BitVec 3)
deriving DecidableEq, Repr

/-- The state. `regs`, `flags`, `cause`, `ecmd` are the whole architectural state (R20); `pending`, `reply`, `resets`
are the model's own fields for the interface (log entries 1, 2, 3). A status register holds its implemented bits only:
its other bits read as zero and cannot be set (R23 to R25, log entry 9). -/
structure State where
  /-- r0 to r15 (R21) -/
  regs : Vector Word 16
  /-- FLAGS bits 4 to 0: IC, ID, RN, DZ, OV (R23) -/
  flags : BitVec 5
  /-- CAUSE bits 2 to 0 (R24) -/
  cause : BitVec 3
  /-- ECMD bits 31 to 0 (R25) -/
  ecmd : BitVec 32
  /-- the host operations issued and not yet performed, the next one first (R46) -/
  pending : List HostOp
  /-- what the last host operation performed returned (R43) -/
  reply : Reply
  /-- how many RESET operations have been performed; it only selects the draw of RESET_GPR (R28) -/
  resets : Nat
deriving DecidableEq, Repr

/-- Reasons a step could stop with a fault: none. Every command and every host operation finishes (R217), and an
exception is no fault: it leaves the block ready for the next operation (R190). Safe: nothing raises a fault. -/
inductive Fault where
deriving DecidableEq, Repr

/-- Reasons a step could be refused. -/
inductive Refusal where
  /-- Raised by an arm of `exec` whose instruction has no meaning yet; every instruction has one, so nothing raises it.
  Safe: it can only stop a run. -/
  | notModelled (mnemonic : String)
deriving DecidableEq, Repr

/-- The state right after the `n`-th reset event, with `ops` still to be performed: the status registers are 0, the
general registers hold the unspecified values of RESET_GPR (R28, R210). The reply is a model choice: RESET returns
nothing. -/
def State.afterReset (n : Nat) (ops : List HostOp) : State :=
  { regs := Vector.ofFn (Config.resetGpr n)
    flags := 0
    cause := 0
    ecmd := 0
    pending := ops
    reply := .nothing
    resets := n }

/-- The machine right after reset: waiting for the host (R210). -/
def State.reset : State := State.afterReset 0 []

end Sys2Proof.Machine
end

