-- ==== Sys2Proof/Machine/Ops.lean ====
section
/-!
DEFINITION. The named operations over the state: reading and writing a general register (10_state.md R21), completing a
command, TAKING AN EXCEPTION (60_exceptions.md R193), and the host operations other than CMD (20_memory.md R43).
There is no return from an exception: after a raise the block is as after a completed command (R196).
-/

namespace Sys2Proof.Machine

/-- `x[r]`: the pattern in general register `r` (R9). -/
def State.reg (s : State) (r : Reg) : Word := s.regs[r]

/-- `x[r] <- w` (R9). No register is hardwired (R21). -/
def State.setReg (s : State) (r : Reg) (w : Word) : State := { s with regs := s.regs.set r w }

/-- A command completes: it writes `rd`, answers OK (response 0), and changes no status register (R43, R45, R196). -/
def State.complete (s : State) (rd : Reg) (v : Word) : State := { s.setReg rd v with reply := .response 0 }

/-- Raising exception `e` on command word `w`: the sticky bit is set, CAUSE takes the code, ECMD the word, the response
is the code, and no general register is written (R193). -/
def State.raise (s : State) (e : Exn) (w : CommandWord) : State :=
  { s with
    flags := raiseFlag s.flags e
    cause := exnCode e
    ecmd := w
    reply := .response (exnCode e) }

/-- How a command ends: with its result in `rd`, or by raising on its own word (R190). -/
def State.conclude (s : State) (w : CommandWord) (rd : Reg) (result : Except Exn Word) : State :=
  match result with
  | .ok v => s.complete rd v
  | .error e => s.raise e w

/-- The end of every command's meaning. A legal word is the encoding of the command it spells and of no other (R63), so
the word a raise puts into ECMD is `encode i` (log entry 10). -/
def finish (i : Instr) (rd : Reg) (result : Except Exn Word) (s : State) : Host.Outcome State Fault Refusal :=
  .next (s.conclude (encode i) rd result)

/-- `WR i, w` (R43). -/
def hostWrite (i : Reg) (w : Word) (s : State) : State := { s.setReg i w with reply := .nothing }

/-- `RD i`: no effect, returns `x[i]` (R43). -/
def hostRead (i : Reg) (s : State) : State := { s with reply := .value (s.reg i) }

/-- Status register `k` as 64 bits: FLAGS, CAUSE, ECMD, and 0 for `k = 3` (R43, R45). Unimplemented bits read as zero
(R23 to R25). -/
def State.status (s : State) (k : Fin 4) : Word :=
  match k with
  | 0 => s.flags.setWidth 64
  | 1 => s.cause.setWidth 64
  | 2 => s.ecmd.setWidth 64
  | 3 => 0

/-- `RDS k`: no effect, returns status register `k` (R43). -/
def hostReadStatus (k : Fin 4) (s : State) : State := { s with reply := .value (s.status k) }

/-- `CLRF m`: clears FLAGS bits, leaves CAUSE and ECMD (R43). -/
def hostClearFlags (m : Word) (s : State) : State := { s with flags := clearFlags s.flags m, reply := .nothing }

/-- `RESET`: the state of R28, with a fresh draw of RESET_GPR (R210). The host's later operations stay in the sequence
(R46). -/
def hostReset (s : State) : State := State.afterReset (s.resets + 1) s.pending

/-- The next operation of the host's sequence and the state with it taken off, none when the host has issued no more
(R46). -/
def State.takeOp (s : State) : Option (HostOp × State) :=
  match s.pending with
  | [] => none
  | op :: rest => some (op, { s with pending := rest })

/-- The host issues operations: they go to the end of the sequence (R46). -/
def State.issue (s : State) (ops : List HostOp) : State := { s with pending := s.pending ++ ops }

end Sys2Proof.Machine
end

