-- ==== Sys2Proof/Machine/Rounding.lean ====
section
/-!
DEFINITION. The four functions every scaled command is defined by: Classify, Increment, Round, Deliver (40_rounding.md
R82 to R86), on unbounded integers, so that a result is rounded once (R80).
-/

namespace Sys2Proof.Machine

/-- `Classify(r, d)` (R82), total on all `r` and `d`. -/
def classify (r d : Nat) : TruncatedPart :=
  if r = 0 then .zero
  else if 2 * r < d then .lessThanHalfNonzero
  else if 2 * r = d then .equalToHalf
  else .greaterThanHalf

/-- `Increment(rm, sign, t, part)`, the table of R83; a zero part gives 0 in every mode. -/
def increment (rm : RoundingMode) (sign : Sign) (t : Int) (part : TruncatedPart) : Except Exn Int :=
  match rm, part with
  | _, .zero => .ok 0
  | .up, _ => .ok (signValue sign)
  | .down, _ => .ok 0
  | .ceiling, _ => .ok (match sign with | .positive => 1 | .negative => 0)
  | .floor, _ => .ok (match sign with | .positive => 0 | .negative => -1)
  | .halfUp, .lessThanHalfNonzero => .ok 0
  | .halfUp, _ => .ok (signValue sign)
  | .halfDown, .greaterThanHalf => .ok (signValue sign)
  | .halfDown, _ => .ok 0
  | .halfEven, .lessThanHalfNonzero => .ok 0
  | .halfEven, .equalToHalf => .ok (if t % 2 = 1 then signValue sign else 0)
  | .halfEven, .greaterThanHalf => .ok (signValue sign)
  | .unnecessary, _ => .error .roundingNecessary

/-- Adding the increment to a truncated value, or the exception the increment raises. -/
def addIncrement (rm : RoundingMode) (sign : Sign) (t : Int) (part : TruncatedPart) : Except Exn Int :=
  match increment rm sign t part with
  | .ok k => .ok (t + k)
  | .error e => .error e

/-- The sign of an exact value's discarded part: negative exactly when the value is (R84). -/
def signOfInt (n : Int) : Sign := if n < 0 then .negative else .positive

/-- `Round(rm, n, d)`: the exact rational `n / d` rounded once (R84). Used with `d ≠ 0` only. -/
def roundQuotient (rm : RoundingMode) (n d : Int) : Except Exn Int :=
  let m := if d < 0 then -n else n
  let sign := signOfInt m
  let t := signValue sign * ((n.natAbs / d.natAbs : Nat) : Int)
  addIncrement rm sign t (classify (n.natAbs % d.natAbs) d.natAbs)

/-- `Deliver(v, c)`: the range check on the final value (R85). -/
def deliver (v : Int) (c : OverflowMode) : Except Exn Word :=
  if inRange v then .ok (wrap64 v)
  else
    match c with
    | .checked => .error .overflow
    | .unchecked => .ok (wrap64 v)

/-- `Deliver` of a rounded value, or the exception of the rounding: Round is evaluated first (R85, R194). -/
def deliverRounded (v : Except Exn Int) (c : OverflowMode) : Except Exn Word :=
  match v with
  | .ok v => deliver v c
  | .error e => .error e

/-- `Deliver(Round(rm, n, d), c)`, the form of every rounded result (R80). -/
def roundThenDeliver (rm : RoundingMode) (n d : Int) (c : OverflowMode) : Except Exn Word :=
  deliverRounded (roundQuotient rm n d) c

/-- The limits of a register-given exponent: values outside `lo .. hi` act as the nearer limit. -/
def clamp (lo hi n : Int) : Int := max lo (min hi n)

end Sys2Proof.Machine
end

