-- ==== Sys2Proof/Machine/Checked64.lean ====
section
/-!
DEFINITION. ADD, SUB, MUL, DIV, ABS, NEG (41_checked64.md R100 to R106): Deliver of the exact signed result.
-/

namespace Sys2Proof.Machine

/-- Division of signed integers, truncated toward zero; a zero divisor raises whatever `c` is (R104). -/
def divideTruncated (a b : Int) (c : OverflowMode) : Except Exn Word :=
  if b = 0 then .error .divByZero else roundThenDeliver .down a b c

/-- ADD (R101). -/
def execAdd (rd rs1 rs2 : Reg) (c : OverflowMode) (s : State) : Host.Outcome State Fault Refusal :=
  finish (.add rd rs1 rs2 c) rd (deliver (signedOf (s.reg rs1) + signedOf (s.reg rs2)) c) s

/-- SUB (R102). -/
def execSub (rd rs1 rs2 : Reg) (c : OverflowMode) (s : State) : Host.Outcome State Fault Refusal :=
  finish (.sub rd rs1 rs2 c) rd (deliver (signedOf (s.reg rs1) - signedOf (s.reg rs2)) c) s

/-- MUL (R103). -/
def execMul (rd rs1 rs2 : Reg) (c : OverflowMode) (s : State) : Host.Outcome State Fault Refusal :=
  finish (.mul rd rs1 rs2 c) rd (deliver (signedOf (s.reg rs1) * signedOf (s.reg rs2)) c) s

/-- DIV (R104). -/
def execDiv (rd rs1 rs2 : Reg) (c : OverflowMode) (s : State) : Host.Outcome State Fault Refusal :=
  finish (.div rd rs1 rs2 c) rd (divideTruncated (signedOf (s.reg rs1)) (signedOf (s.reg rs2)) c) s

/-- ABS (R105). -/
def execAbs (rd rs1 : Reg) (c : OverflowMode) (s : State) : Host.Outcome State Fault Refusal :=
  finish (.abs rd rs1 c) rd (deliver ((signedOf (s.reg rs1)).natAbs : Int) c) s

/-- NEG (R106). -/
def execNeg (rd rs1 : Reg) (c : OverflowMode) (s : State) : Host.Outcome State Fault Refusal :=
  finish (.neg rd rs1 c) rd (deliver (-signedOf (s.reg rs1)) c) s

end Sys2Proof.Machine
end

