-- ==== Sys2Proof/Machine/ScaleTable.lean ====
section
/-!
DEFINITION. The read-only table indexed by the scale (10_state.md R27): four columns, computed from their definitions. A
command can read the first one only (LDSF); the others serve realisations.
-/

namespace Sys2Proof.Machine

/-- Column SF(s) = 10^s. -/
def scaleFactor (sc : Nat) : Nat := 10 ^ sc

/-- Column MAXI(s) = trunc(MAX_VALUE / 10^s). -/
def maxIntegral (sc : Nat) : Int := maxValue.tdiv (10 ^ sc)

/-- Column MINI(s) = trunc(MIN_VALUE / 10^s). -/
def minIntegral (sc : Nat) : Int := minValue.tdiv (10 ^ sc)

/-- The number of leading zero bits of a 64-bit pattern, 64 for zero (R164). -/
def leadingZeros (w : Word) : Nat := if w = 0 then 64 else 63 - Nat.log2 w.toNat

/-- Column NLZ(s): the leading zero bits of the scale factor as a 64-bit word. -/
def scaleLeadingZeros (sc : Nat) : Nat := leadingZeros (BitVec.ofNat 64 (scaleFactor sc))

end Sys2Proof.Machine
end

