-- ==== Sys2Proof/Machine/Division.lean ====
section
/-!
DEFINITION. DIVS (44_division.md R140).
-/

namespace Sys2Proof.Machine

/-- `a * 10^s / b` rounded once; a zero divisor raises first, also for a zero dividend (R140). -/
def divideScaled (a b : Int) (sc : Nat) (rm : RoundingMode) (c : OverflowMode) : Except Exn Word :=
  if b = 0 then .error .divByZero else roundThenDeliver rm (a * scaleFactor sc) b c

/-- DIVS (R140). -/
def execDivs (rd rs1 rs2 : Reg) (sc : Nat) (rm : RoundingMode) (c : OverflowMode) (s : State) :
    Host.Outcome State Fault Refusal :=
  finish (.divs rd rs1 rs2 sc rm c) rd (divideScaled (signedOf (s.reg rs1)) (signedOf (s.reg rs2)) sc rm c) s

end Sys2Proof.Machine
end

