-- ==== Sys2Proof/Machine/Multiplicative.lean ====
section
/-!
DEFINITION. MULS, SQRS (45_multiplicative.md R150, R151).
-/

namespace Sys2Proof.Machine

/-- `a * b / 10^s` rounded once from the full product (R150). -/
def multiplyScaled (a b : Int) (sc : Nat) (rm : RoundingMode) (c : OverflowMode) : Except Exn Word :=
  roundThenDeliver rm (a * b) (scaleFactor sc) c

/-- MULS (R150). -/
def execMuls (rd rs1 rs2 : Reg) (sc : Nat) (rm : RoundingMode) (c : OverflowMode) (s : State) :
    Host.Outcome State Fault Refusal :=
  finish (.muls rd rs1 rs2 sc rm c) rd (multiplyScaled (signedOf (s.reg rs1)) (signedOf (s.reg rs2)) sc rm c) s

/-- SQRS (R151): `a * a / 10^s` rounded once. -/
def execSqrs (rd rs1 : Reg) (sc : Nat) (rm : RoundingMode) (c : OverflowMode) (s : State) :
    Host.Outcome State Fault Refusal :=
  finish (.sqrs rd rs1 sc rm c) rd (multiplyScaled (signedOf (s.reg rs1)) (signedOf (s.reg rs1)) sc rm c) s

end Sys2Proof.Machine
end

