-- ==== Sys2Proof/Machine/Pow10Additive.lean ====
section
/-!
DEFINITION. MULP10, DIVP10, ADDS, SUBS (47_pow10_additive.md R175 to R180).
-/

namespace Sys2Proof.Machine

/-- `u * 10^n` rounded once and delivered, for `n` in the range R175 calls different (R175). -/
def scale10At (u n : Int) (rm : RoundingMode) (c : OverflowMode) : Except Exn Word :=
  if 0 ≤ n then deliver (u * 10 ^ n.toNat) c else roundThenDeliver rm u (10 ^ (-n).toNat) c

/-- `Scale10(u, n, rm, c)` (R175): exponents past 64 act as 64 and below -20 as -20. -/
def scale10 (u n : Int) (rm : RoundingMode) (c : OverflowMode) : Except Exn Word :=
  scale10At u (clamp (-20) 64 n) rm c

/-- `AddScaled(a, b, s, s2, rm, c)` (R178): the sum at scale `s`, formed exactly and rounded once. -/
def addScaled (a b : Int) (sc sc2 : Nat) (rm : RoundingMode) (c : OverflowMode) : Except Exn Word :=
  if sc2 ≤ sc then deliver (a + b * 10 ^ (sc - sc2)) c
  else roundThenDeliver rm (a * 10 ^ (sc2 - sc) + b) (10 ^ (sc2 - sc)) c

/-- MULP10 (R176). -/
def execMulp10 (rd rs1 rs2 : Reg) (rm : RoundingMode) (c : OverflowMode) (s : State) :
    Host.Outcome State Fault Refusal :=
  finish (.mulp10 rd rs1 rs2 rm c) rd (scale10 (signedOf (s.reg rs1)) (signedOf (s.reg rs2)) rm c) s

/-- DIVP10 (R177): the negation of the exponent is that of the mathematical integer. -/
def execDivp10 (rd rs1 rs2 : Reg) (rm : RoundingMode) (c : OverflowMode) (s : State) :
    Host.Outcome State Fault Refusal :=
  finish (.divp10 rd rs1 rs2 rm c) rd (scale10 (signedOf (s.reg rs1)) (-signedOf (s.reg rs2)) rm c) s

/-- ADDS (R179). -/
def execAdds (rd rs1 rs2 : Reg) (sc sc2 : Nat) (rm : RoundingMode) (c : OverflowMode) (s : State) :
    Host.Outcome State Fault Refusal :=
  finish (.adds rd rs1 rs2 sc sc2 rm c) rd
    (addScaled (signedOf (s.reg rs1)) (signedOf (s.reg rs2)) sc sc2 rm c) s

/-- SUBS (R180): the sum with the mathematical negation of the subtrahend. -/
def execSubs (rd rs1 rs2 : Reg) (sc sc2 : Nat) (rm : RoundingMode) (c : OverflowMode) (s : State) :
    Host.Outcome State Fault Refusal :=
  finish (.subs rd rs1 rs2 sc sc2 rm c) rd
    (addScaled (signedOf (s.reg rs1)) (-signedOf (s.reg rs2)) sc sc2 rm c) s

end Sys2Proof.Machine
end

