-- ==== Sys2Proof/Machine/RootShift.lean ====
section
/-!
DEFINITION. SQRTS, SHL, SHR (46_root_shift.md R160 to R165). The integer root is the restoring digit loop of R161.
-/

namespace Sys2Proof.Machine

/-- The restoring square root over the `k` lowest pairs of bits of `n`, from the highest pair down: (root, remainder)
(R161). One unfolding is one iteration: bring down two radicand bits, try `2 * root + 1`. -/
def sqrtLoop : Nat → Nat → Nat × Nat
  | 0, _ => (0, 0)
  | k + 1, n =>
    match sqrtLoop k (n / 4) with
    | (root, rem) =>
      let rem := rem * 4 + n % 4
      let root := root * 2
      let trial := root * 2 + 1
      if trial ≤ rem then (root + 1, rem - trial) else (root, rem)

/-- `isqrt` of a radicand of up to 128 bits and its remainder: 64 iterations (R160, R161 with W = 128). -/
def integerRoot (n : Nat) : Nat × Nat := sqrtLoop 64 n

/-- The part of a square root's discarded fraction; a tie cannot occur (R160). -/
def rootPart (root rem : Nat) : TruncatedPart :=
  if rem = 0 then .zero else if root < rem then .greaterThanHalf else .lessThanHalfNonzero

/-- `sqrt(a * 10^s)` rounded once; a negative operand raises first (R160). -/
def squareRootScaled (a : Int) (sc : Nat) (rm : RoundingMode) : Except Exn Word :=
  if a < 0 then .error .invalidDomain
  else
    match integerRoot (a.toNat * scaleFactor sc) with
    | (root, rem) =>
      match addIncrement rm .positive root (rootPart root rem) with
      | .ok v => .ok (wrap64 v)
      | .error e => .error e

/-- `u * 2^n` rounded once and delivered, for `n` in the range R165 calls different (R165). -/
def scale2At (u n : Int) (rm : RoundingMode) (c : OverflowMode) : Except Exn Word :=
  if 0 ≤ n then deliver (u * 2 ^ n.toNat) c else roundThenDeliver rm u (2 ^ (-n).toNat) c

/-- `Scale2(u, n, rm, c)` (R165): amounts past 64 act as 64 and below -65 as -65. -/
def scale2 (u n : Int) (rm : RoundingMode) (c : OverflowMode) : Except Exn Word :=
  scale2At u (clamp (-65) 64 n) rm c

/-- SQRTS (R160). -/
def execSqrts (rd rs1 : Reg) (sc : Nat) (rm : RoundingMode) (s : State) : Host.Outcome State Fault Refusal :=
  finish (.sqrts rd rs1 sc rm) rd (squareRootScaled (signedOf (s.reg rs1)) sc rm) s

/-- SHL (R162): the amount is signed and not taken modulo 64. -/
def execShl (rd rs1 rs2 : Reg) (rm : RoundingMode) (c : OverflowMode) (s : State) :
    Host.Outcome State Fault Refusal :=
  finish (.shl rd rs1 rs2 rm c) rd (scale2 (signedOf (s.reg rs1)) (signedOf (s.reg rs2)) rm c) s

/-- SHR (R163): the negation of the amount is that of the mathematical integer. -/
def execShr (rd rs1 rs2 : Reg) (rm : RoundingMode) (c : OverflowMode) (s : State) :
    Host.Outcome State Fault Refusal :=
  finish (.shr rd rs1 rs2 rm c) rd (scale2 (signedOf (s.reg rs1)) (-signedOf (s.reg rs2)) rm c) s

end Sys2Proof.Machine
end

