-- ==== Sys2Proof/Machine/RoundingDecision.lean ====
section
/-!
DEFINITION. RINC, RCLS, RCLS2, RCLSW, RMINV (40_rounding.md R87 to R91).
-/

namespace Sys2Proof.Machine

/-- RINC on the operand patterns: the part code is looked at first (R87, R194). -/
def roundingIncrement (rm : RoundingMode) (sign t part : Word) : Except Exn Word :=
  match partOfCode (unsignedOf part) with
  | none => .error .invalidDomain
  | some p =>
    match increment rm (signOf sign) (signedOf t) p with
    | .ok k => .ok (wrap64 k)
    | .error e => .error e

/-- `Classify(r, 2^n)` with the exponent limited to `limit`, past which nothing changes when `2 * r < 2^limit` (R89,
R90). -/
def classifyPow2 (limit r n : Nat) : TruncatedPart := classify r (2 ^ min n limit)

/-- The mode for a negated quantity: CEILING and FLOOR exchanged (R91). -/
def invertMode : RoundingMode → RoundingMode
  | .up => .up
  | .down => .down
  | .ceiling => .floor
  | .floor => .ceiling
  | .halfUp => .halfUp
  | .halfDown => .halfDown
  | .halfEven => .halfEven
  | .unnecessary => .unnecessary

/-- RINC (R87): the rounding increment. -/
def execRinc (rd rs1 rs2 rs3 : Reg) (rm : RoundingMode) (s : State) : Host.Outcome State Fault Refusal :=
  finish (.rinc rd rs1 rs2 rs3 rm) rd (roundingIncrement rm (s.reg rs1) (s.reg rs2) (s.reg rs3)) s

/-- RCLS (R88): classify a remainder and a divisor, both unsigned. -/
def execRcls (rd rs1 rs2 : Reg) (s : State) : Host.Outcome State Fault Refusal :=
  finish (.rcls rd rs1 rs2) rd (.ok (partWord (classify (unsignedOf (s.reg rs1)) (unsignedOf (s.reg rs2))))) s

/-- RCLS2 (R89): classify a remainder against `2^n`; for `n >= 66` the result is that of 66. -/
def execRcls2 (rd rs1 rs2 : Reg) (s : State) : Host.Outcome State Fault Refusal :=
  finish (.rcls2 rd rs1 rs2) rd (.ok (partWord (classifyPow2 66 (unsignedOf (s.reg rs1)) (unsignedOf (s.reg rs2))))) s

/-- RCLSW (R90): classify a 128-bit remainder against `2^n`; for `n >= 130` the result is that of 130. -/
def execRclsw (rd rs1 rs2 rs3 : Reg) (s : State) : Host.Outcome State Fault Refusal :=
  finish (.rclsw rd rs1 rs2 rs3) rd
    (.ok (partWord (classifyPow2 130 (wideOf (s.reg rs1) (s.reg rs2)) (unsignedOf (s.reg rs3))))) s

/-- RMINV (R91): the code of the inverted mode. -/
def execRminv (rd : Reg) (rm : RoundingMode) (s : State) : Host.Outcome State Fault Refusal :=
  finish (.rminv rd rm) rd (.ok (modeWord (invertMode rm))) s

end Sys2Proof.Machine
end

