-- ==== Sys2Proof/Machine/Unsigned64.lean ====
section
/-!
DEFINITION. UCMP, ULT, UGT, ULE, UDIV (42_unsigned64.md R115 to R120): both operands unsigned.
-/

namespace Sys2Proof.Machine

/-- The three-way comparison: -1, 0 or +1 as a pattern (R116, R61). -/
def compareUnsigned (a b : Nat) : Word :=
  if a < b then wrap64 (-1) else if a = b then wrap64 0 else wrap64 1

/-- Unsigned division; a zero divisor raises (R120). -/
def divideUnsigned (a b : Nat) : Except Exn Word :=
  if b = 0 then .error .divByZero else .ok (wrap64 ((a / b : Nat) : Int))

/-- UCMP (R116). -/
def execUcmp (rd rs1 rs2 : Reg) (s : State) : Host.Outcome State Fault Refusal :=
  finish (.ucmp rd rs1 rs2) rd (.ok (compareUnsigned (unsignedOf (s.reg rs1)) (unsignedOf (s.reg rs2)))) s

/-- ULT (R117). -/
def execUlt (rd rs1 rs2 : Reg) (s : State) : Host.Outcome State Fault Refusal :=
  finish (.ult rd rs1 rs2) rd (.ok (truthWord (decide (unsignedOf (s.reg rs1) < unsignedOf (s.reg rs2))))) s

/-- UGT (R118). -/
def execUgt (rd rs1 rs2 : Reg) (s : State) : Host.Outcome State Fault Refusal :=
  finish (.ugt rd rs1 rs2) rd (.ok (truthWord (decide (unsignedOf (s.reg rs1) > unsignedOf (s.reg rs2))))) s

/-- ULE (R119). -/
def execUle (rd rs1 rs2 : Reg) (s : State) : Host.Outcome State Fault Refusal :=
  finish (.ule rd rs1 rs2) rd (.ok (truthWord (decide (unsignedOf (s.reg rs1) ≤ unsignedOf (s.reg rs2))))) s

/-- UDIV (R120). -/
def execUdiv (rd rs1 rs2 : Reg) (s : State) : Host.Outcome State Fault Refusal :=
  finish (.udiv rd rs1 rs2) rd (divideUnsigned (unsignedOf (s.reg rs1)) (unsignedOf (s.reg rs2))) s

end Sys2Proof.Machine
end

