-- ==== Sys2Proof/Machine/Wide128.lean ====
section
/-!
DEFINITION. MULLO, MULHIU, MULHIS, DIVWQ, DIVWR, LDSF (43_wide128.md R125 to R131). A 128-bit quantity is two registers
named separately.
-/

namespace Sys2Proof.Machine

/-- The quotient of a 128-bit dividend, range-checked against the unsigned 64-bit range (R129). -/
def wideQuotient (n d : Nat) (c : OverflowMode) : Except Exn Word :=
  if d = 0 then .error .divByZero
  else if 2 ^ 64 ≤ n / d ∧ c = .checked then .error .overflow
  else .ok (wrap64 ((n / d : Nat) : Int))

/-- The remainder of the same division (R130). -/
def wideRemainder (n d : Nat) : Except Exn Word :=
  if d = 0 then .error .divByZero else .ok (wrap64 ((n % d : Nat) : Int))

/-- MULLO (R126). -/
def execMullo (rd rs1 rs2 : Reg) (s : State) : Host.Outcome State Fault Refusal :=
  finish (.mullo rd rs1 rs2) rd (.ok (wrap64 ((unsignedOf (s.reg rs1) * unsignedOf (s.reg rs2) : Nat) : Int))) s

/-- MULHIU (R127). -/
def execMulhiu (rd rs1 rs2 : Reg) (s : State) : Host.Outcome State Fault Refusal :=
  finish (.mulhiu rd rs1 rs2) rd
    (.ok (wrap64 ((unsignedOf (s.reg rs1) * unsignedOf (s.reg rs2) / 2 ^ 64 : Nat) : Int))) s

/-- MULHIS (R128): the floor of the signed product over 2^64; on Int `/` by a positive number is the floor. -/
def execMulhis (rd rs1 rs2 : Reg) (s : State) : Host.Outcome State Fault Refusal :=
  finish (.mulhis rd rs1 rs2) rd (.ok (wrap64 (signedOf (s.reg rs1) * signedOf (s.reg rs2) / 2 ^ 64))) s

/-- DIVWQ (R129). -/
def execDivwq (rd rs1 rs2 rs3 : Reg) (c : OverflowMode) (s : State) : Host.Outcome State Fault Refusal :=
  finish (.divwq rd rs1 rs2 rs3 c) rd
    (wideQuotient (wideOf (s.reg rs1) (s.reg rs2)) (unsignedOf (s.reg rs3)) c) s

/-- DIVWR (R130). -/
def execDivwr (rd rs1 rs2 rs3 : Reg) (s : State) : Host.Outcome State Fault Refusal :=
  finish (.divwr rd rs1 rs2 rs3) rd (wideRemainder (wideOf (s.reg rs1) (s.reg rs2)) (unsignedOf (s.reg rs3))) s

/-- LDSF (R131): the first column of the table of R27. -/
def execLdsf (rd : Reg) (sc : Nat) (s : State) : Host.Outcome State Fault Refusal :=
  finish (.ldsf rd sc) rd (.ok (wrap64 (scaleFactor sc : Nat))) s

end Sys2Proof.Machine
end

