-- ==== Sys2Proof/Machine/Dispatch.lean ====
section
/-!
DEFINITION. What performing a command does: one arm per command of 30_encoding.md R62, one direct call of its meaning.
-/

namespace Sys2Proof.Machine

/-- Performing a legal command (R43, operation CMD). -/
def exec (i : Instr) (s : State) : Host.Outcome State Fault Refusal :=
  match i with
  | .add rd rs1 rs2 c => Sys2Proof.Machine.execAdd rd rs1 rs2 c s
  | .sub rd rs1 rs2 c => Sys2Proof.Machine.execSub rd rs1 rs2 c s
  | .mul rd rs1 rs2 c => Sys2Proof.Machine.execMul rd rs1 rs2 c s
  | .div rd rs1 rs2 c => Sys2Proof.Machine.execDiv rd rs1 rs2 c s
  | .abs rd rs1 c => Sys2Proof.Machine.execAbs rd rs1 c s
  | .neg rd rs1 c => Sys2Proof.Machine.execNeg rd rs1 c s
  | .ucmp rd rs1 rs2 => Sys2Proof.Machine.execUcmp rd rs1 rs2 s
  | .ult rd rs1 rs2 => Sys2Proof.Machine.execUlt rd rs1 rs2 s
  | .ugt rd rs1 rs2 => Sys2Proof.Machine.execUgt rd rs1 rs2 s
  | .ule rd rs1 rs2 => Sys2Proof.Machine.execUle rd rs1 rs2 s
  | .udiv rd rs1 rs2 => Sys2Proof.Machine.execUdiv rd rs1 rs2 s
  | .mullo rd rs1 rs2 => Sys2Proof.Machine.execMullo rd rs1 rs2 s
  | .mulhiu rd rs1 rs2 => Sys2Proof.Machine.execMulhiu rd rs1 rs2 s
  | .mulhis rd rs1 rs2 => Sys2Proof.Machine.execMulhis rd rs1 rs2 s
  | .divwq rd rs1 rs2 rs3 c => Sys2Proof.Machine.execDivwq rd rs1 rs2 rs3 c s
  | .divwr rd rs1 rs2 rs3 => Sys2Proof.Machine.execDivwr rd rs1 rs2 rs3 s
  | .ldsf rd sc => Sys2Proof.Machine.execLdsf rd sc s
  | .rinc rd rs1 rs2 rs3 rm => Sys2Proof.Machine.execRinc rd rs1 rs2 rs3 rm s
  | .rcls rd rs1 rs2 => Sys2Proof.Machine.execRcls rd rs1 rs2 s
  | .rcls2 rd rs1 rs2 => Sys2Proof.Machine.execRcls2 rd rs1 rs2 s
  | .rclsw rd rs1 rs2 rs3 => Sys2Proof.Machine.execRclsw rd rs1 rs2 rs3 s
  | .rminv rd rm => Sys2Proof.Machine.execRminv rd rm s
  | .divs rd rs1 rs2 sc rm c => Sys2Proof.Machine.execDivs rd rs1 rs2 sc rm c s
  | .muls rd rs1 rs2 sc rm c => Sys2Proof.Machine.execMuls rd rs1 rs2 sc rm c s
  | .sqrs rd rs1 sc rm c => Sys2Proof.Machine.execSqrs rd rs1 sc rm c s
  | .sqrts rd rs1 sc rm => Sys2Proof.Machine.execSqrts rd rs1 sc rm s
  | .shl rd rs1 rs2 rm c => Sys2Proof.Machine.execShl rd rs1 rs2 rm c s
  | .shr rd rs1 rs2 rm c => Sys2Proof.Machine.execShr rd rs1 rs2 rm c s
  | .mulp10 rd rs1 rs2 rm c => Sys2Proof.Machine.execMulp10 rd rs1 rs2 rm c s
  | .divp10 rd rs1 rs2 rm c => Sys2Proof.Machine.execDivp10 rd rs1 rs2 rm c s
  | .adds rd rs1 rs2 sc sc2 rm c => Sys2Proof.Machine.execAdds rd rs1 rs2 sc sc2 rm c s
  | .subs rd rs1 rs2 sc sc2 rm c => Sys2Proof.Machine.execSubs rd rs1 rs2 sc sc2 rm c s

end Sys2Proof.Machine
end

