-- ==== Sys2Proof/Machine/HostOps.lean ====
section
/-!
DEFINITION. Performing one host operation (20_memory.md R43). CMD decodes its word (R65) and performs the command, or
raises ILLEGAL_COMMAND before any register is read (R64).
-/

namespace Sys2Proof.Machine

/-- `CMD w` (R43). -/
def issueCommand (w : CommandWord) (s : State) : Host.Outcome State Fault Refusal :=
  match decode w with
  | .ok i => exec i s
  | .error _ => .next (s.raise .illegalCommand w)

/-- One host operation (R43). -/
def perform (op : HostOp) (s : State) : Host.Outcome State Fault Refusal :=
  match op with
  | .wr i w => .next (hostWrite i w s)
  | .rd i => .next (hostRead i s)
  | .cmd w => issueCommand w s
  | .rds k => .next (hostReadStatus k s)
  | .clrf m => .next (hostClearFlags m s)
  | .reset => .next (hostReset s)

end Sys2Proof.Machine
end

