-- ==== Sys2Proof/Machine/Step.lean ====
section
/-!
DEFINITION. One step: the next operation of the host's sequence takes effect completely (20_memory.md R46).
-/

namespace Sys2Proof.Machine

/-- One step performs the next pending host operation. With none pending the block is idle and waits for the host
(R210, R219): the state stays as it is (log entry 2). -/
def step (s : State) : Host.Outcome State Fault Refusal :=
  match s.takeOp with
  | none => .next s
  | some (op, t) => perform op t

/-- The state in which the host's next operation is `CMD w`: the block fetches nothing, a command word is an argument of
CMD (R22, R48). -/
def State.withFetchWord (s : State) (nbits w : Nat) : State :=
  { s with pending := .cmd (BitVec.ofNat 32 (w % 2 ^ nbits)) :: s.pending }

end Sys2Proof.Machine
end

