-- ==== Sys2Proof/Assembly.lean ====
section
/-!
DEFINITION. The assembler text of a command (30_encoding.md R66): mnemonic, `.MODE` exactly when the command uses `rm`,
`.C` or `.U` exactly when it uses `c`, then the registers in field order, `s=` and `s2=` where used. No pseudo-
instructions (R67).
-/

namespace Sys2Proof

/-- The name of a rounding mode (R59). -/
def modeText : RoundingMode → String
  | .up => "UP"
  | .down => "DOWN"
  | .ceiling => "CEILING"
  | .floor => "FLOOR"
  | .halfUp => "HALF_UP"
  | .halfDown => "HALF_DOWN"
  | .halfEven => "HALF_EVEN"
  | .unnecessary => "UNNECESSARY"

/-- `.C` for CHECKED, `.U` for UNCHECKED (R66). -/
def checkText : OverflowMode → String
  | .checked => ".C"
  | .unchecked => ".U"

/-- `r0` to `r15` (R66). -/
def regText (r : Reg) : String := "r" ++ toString r.val

/-- Register operands in field order, separated by a comma and a space (R66). -/
def regsText : List Reg → String
  | [] => ""
  | [r] => regText r
  | r :: rs => regText r ++ ", " ++ regsText rs

/-- The scale operand (R66). -/
def scaleText (sc : Nat) : String := ", s=" ++ toString sc

/-- The second scale operand of format D (R66). -/
def secondScaleText (sc2 : Nat) : String := ", s2=" ++ toString sc2

/-- What follows the mnemonic: the modes written, the registers, the scales (R66). -/
def operandsText : Instr → String
  | .add rd rs1 rs2 c => checkText c ++ " " ++ regsText [rd, rs1, rs2]
  | .sub rd rs1 rs2 c => checkText c ++ " " ++ regsText [rd, rs1, rs2]
  | .mul rd rs1 rs2 c => checkText c ++ " " ++ regsText [rd, rs1, rs2]
  | .div rd rs1 rs2 c => checkText c ++ " " ++ regsText [rd, rs1, rs2]
  | .abs rd rs1 c => checkText c ++ " " ++ regsText [rd, rs1]
  | .neg rd rs1 c => checkText c ++ " " ++ regsText [rd, rs1]
  | .ucmp rd rs1 rs2 => " " ++ regsText [rd, rs1, rs2]
  | .ult rd rs1 rs2 => " " ++ regsText [rd, rs1, rs2]
  | .ugt rd rs1 rs2 => " " ++ regsText [rd, rs1, rs2]
  | .ule rd rs1 rs2 => " " ++ regsText [rd, rs1, rs2]
  | .udiv rd rs1 rs2 => " " ++ regsText [rd, rs1, rs2]
  | .mullo rd rs1 rs2 => " " ++ regsText [rd, rs1, rs2]
  | .mulhiu rd rs1 rs2 => " " ++ regsText [rd, rs1, rs2]
  | .mulhis rd rs1 rs2 => " " ++ regsText [rd, rs1, rs2]
  | .divwq rd rs1 rs2 rs3 c => checkText c ++ " " ++ regsText [rd, rs1, rs2, rs3]
  | .divwr rd rs1 rs2 rs3 => " " ++ regsText [rd, rs1, rs2, rs3]
  | .ldsf rd sc => " " ++ regText rd ++ scaleText sc
  | .rinc rd rs1 rs2 rs3 rm => "." ++ modeText rm ++ " " ++ regsText [rd, rs1, rs2, rs3]
  | .rcls rd rs1 rs2 => " " ++ regsText [rd, rs1, rs2]
  | .rcls2 rd rs1 rs2 => " " ++ regsText [rd, rs1, rs2]
  | .rclsw rd rs1 rs2 rs3 => " " ++ regsText [rd, rs1, rs2, rs3]
  | .rminv rd rm => "." ++ modeText rm ++ " " ++ regText rd
  | .divs rd rs1 rs2 sc rm c =>
    "." ++ modeText rm ++ checkText c ++ " " ++ regsText [rd, rs1, rs2] ++ scaleText sc
  | .muls rd rs1 rs2 sc rm c =>
    "." ++ modeText rm ++ checkText c ++ " " ++ regsText [rd, rs1, rs2] ++ scaleText sc
  | .sqrs rd rs1 sc rm c => "." ++ modeText rm ++ checkText c ++ " " ++ regsText [rd, rs1] ++ scaleText sc
  | .sqrts rd rs1 sc rm => "." ++ modeText rm ++ " " ++ regsText [rd, rs1] ++ scaleText sc
  | .shl rd rs1 rs2 rm c => "." ++ modeText rm ++ checkText c ++ " " ++ regsText [rd, rs1, rs2]
  | .shr rd rs1 rs2 rm c => "." ++ modeText rm ++ checkText c ++ " " ++ regsText [rd, rs1, rs2]
  | .mulp10 rd rs1 rs2 rm c => "." ++ modeText rm ++ checkText c ++ " " ++ regsText [rd, rs1, rs2]
  | .divp10 rd rs1 rs2 rm c => "." ++ modeText rm ++ checkText c ++ " " ++ regsText [rd, rs1, rs2]
  | .adds rd rs1 rs2 sc sc2 rm c =>
    "." ++ modeText rm ++ checkText c ++ " " ++ regsText [rd, rs1, rs2] ++ scaleText sc ++ secondScaleText sc2
  | .subs rd rs1 rs2 sc sc2 rm c =>
    "." ++ modeText rm ++ checkText c ++ " " ++ regsText [rd, rs1, rs2] ++ scaleText sc ++ secondScaleText sc2

/-- The assembler text of a command (R66). -/
def asmText (i : Instr) : String := i.mnemonic ++ operandsText i

end Sys2Proof
end

