-- ==== Sys2Proof/Machine/Realisations.lean ====
section
/-!
DEFINITION. The internal algorithms the spec prescribes as realisations (40 R92, 41 R107, 42 R121, 43 R132 and R133,
44 R141, 45 R152, 46 R164, 47 R181; the root loop of R161 is in RootShift.lean). None is observable (R80, U9): no
meaning of a command calls them, and statements say that each equals the functional rule it realises.
-/

namespace Sys2Proof.Machine

/-- Classify on 64-bit words without forming `2r`: compare with `d >> 1` and look at the lowest bit of `d` (R92). -/
def classifyHalved (r d : Word) : TruncatedPart :=
  if r = 0 then .zero
  else if d >>> 1 < r then .greaterThanHalf
  else if d &&& 1 = 0 ∧ d >>> 1 = r then .equalToHalf
  else .lessThanHalfNonzero

/-- The sign-based overflow test of ADD: `(a^b) >= 0 & (a^r) < 0` (R107). -/
def addOverflows (a b : Word) : Bool := decide (0 ≤ signedOf (a ^^^ b) ∧ signedOf (a ^^^ (a + b)) < 0)

/-- The sign-based overflow test of SUB: `(a^b) < 0 & (a^r) < 0` (R107). -/
def subOverflows (a b : Word) : Bool := decide (signedOf (a ^^^ b) < 0 ∧ signedOf (a ^^^ (a - b)) < 0)

/-- The fallback overflow test of `multiplyLong`: `a != 0` and (`r / a != b`, or `a = -1` and `b = MIN_VALUE`), with `/`
the wrapping truncating division (R107). -/
def mulOverflows (a b : Word) : Bool :=
  decide (a ≠ 0 ∧ ((a * b).sdiv a ≠ b ∨ (signedOf a = -1 ∧ signedOf b = minValue)))

/-- Unsigned comparison by flipping the sign bits before a signed one (R121). -/
def lessByFlip (a b : Word) : Bool :=
  decide (signedOf (a ^^^ 0x8000000000000000#64) < signedOf (b ^^^ 0x8000000000000000#64))

/-- Unsigned division from signed division, halving and one correction; divisor not zero (R121). -/
def divideByHalving (n d : Word) : Word :=
  if signedOf d < 0 then (if d ≤ n then 1 else 0)
  else if 0 ≤ signedOf n then n.sdiv d
  else if d &&& 1 = 0 then (n >>> 1).sdiv (d >>> 1)
  else
    let q := (n >>> 1).sdiv d * 2
    let r := n - q * d
    if d ≤ r then q + 1 else q

/-- The widening multiply from four 32×32 partial products: (high, low) (R132). -/
def mulWide (a b : Word) : Word × Word :=
  let m : Word := 0xFFFFFFFF#64
  let a1 := a >>> 32
  let a0 := a &&& m
  let b1 := b >>> 32
  let b0 := b &&& m
  let p00 := a0 * b0
  let p01 := a0 * b1
  let p10 := a1 * b0
  let p11 := a1 * b1
  let mid := (p00 >>> 32) + (p01 &&& m) + (p10 &&& m)
  let lo := (p00 &&& m) ||| ((mid &&& m) <<< 32)
  let hi := p11 + (p01 >>> 32) + (p10 >>> 32) + (mid >>> 32)
  (hi, lo)

/-- At most `fuel` corrections of a guessed quotient digit: (digit, running remainder) (R133). `vn1` and `vn0` are the
halves of the normalised divisor, `next` the next dividend digit. A correction that leaves the running remainder at
2^32 or more ends the loop. -/
def correctDigit (vn1 vn0 next : Nat) : Nat → Nat × Nat → Nat × Nat
  | 0, g => g
  | fuel + 1, (q, rhat) =>
    if 2 ^ 32 ≤ q ∨ 2 ^ 32 * rhat + next < q * vn0 then
      if 2 ^ 32 ≤ rhat + vn1 then (q - 1, rhat + vn1)
      else correctDigit vn1 vn0 next fuel (q - 1, rhat + vn1)
    else (q, rhat)

/-- One digit of the quotient: guess from the top half of the divisor, then at most two corrections (R133). -/
def quotientDigit (un vn1 vn0 next : Nat) : Nat :=
  (correctDigit vn1 vn0 next 2 (un / vn1, un - un / vn1 * vn1)).1

/-- The normalised 128-by-64 division: (quotient, remainder), for `u1 < v` (R133). The differences the spec takes modulo
2^64 are taken on integers and reduced. -/
def div128by64 (u1 u0 v : Nat) : Nat × Nat :=
  let sh := leadingZeros (BitVec.ofNat 64 v)
  let vn := v * 2 ^ sh % 2 ^ 64
  let vn1 := vn / 2 ^ 32
  let vn0 := vn % 2 ^ 32
  let un32 := if 0 < sh then (u1 * 2 ^ sh + u0 / 2 ^ (64 - sh)) % 2 ^ 64 else u1
  let un10 := u0 * 2 ^ sh % 2 ^ 64
  let un1 := un10 / 2 ^ 32
  let un0 := un10 % 2 ^ 32
  let q1 := quotientDigit un32 vn1 vn0 un1
  let un21 : Int := (((un32 * 2 ^ 32 + un1 : Nat) : Int) - (q1 * vn : Nat)) % 2 ^ 64
  let q0 := quotientDigit un21.toNat vn1 vn0 un0
  let rem : Int := ((un21 * 2 ^ 32 + (un0 : Nat)) - (q0 * vn : Nat)) % 2 ^ 64
  (q1 * 2 ^ 32 + q0, rem.toNat / 2 ^ sh)

/-- The sign of a quotient `a / b` from the signs of its parts (R141). -/
def signOfQuotient (a b : Int) : Sign := if (a < 0) ↔ ¬(b < 0) then .negative else .positive

/-- The power of ten, up to 10^18, that a magnitude is, if any (R141 step 2). -/
def powerOfTenExponent (d : Nat) : Option Nat := (List.range 19).find? (fun k => d == scaleFactor k)

/-- DIVS by the document's steps 2 to 4; the divisor is not zero (R141). -/
def divideScaledSplit (a b : Int) (sc : Nat) (rm : RoundingMode) (c : OverflowMode) : Except Exn Word :=
  match powerOfTenExponent b.natAbs with
  | some k => roundThenDeliver rm (b.sign * a * scaleFactor sc) (scaleFactor k) c
  | none =>
    if minIntegral sc ≤ a ∧ a ≤ maxIntegral sc then
      let n := a * scaleFactor sc
      let t := n.tdiv b
      let r := n - t * b
      deliverRounded (addIncrement rm (signOfQuotient n b) t (classify r.natAbs b.natAbs)) c
    else
      let ip := a.tdiv b
      let rem := a - ip * b
      let p := mulWide (BitVec.ofNat 64 rem.natAbs) (BitVec.ofNat 64 (scaleFactor sc))
      let qr := div128by64 (unsignedOf p.1) (unsignedOf p.2) b.natAbs
      let sign := signOfQuotient a b
      let t := ip * scaleFactor sc + signValue sign * qr.1
      deliverRounded (addIncrement rm sign t (classify qr.2 b.natAbs)) c

/-- MULS for `s <= 9` from the integral and fractional halves of the factors (R152 (c)). -/
def multiplyScaledSplit (a b : Int) (sc : Nat) (rm : RoundingMode) (c : OverflowMode) : Except Exn Word :=
  let f : Int := scaleFactor sc
  let ai := a.tdiv f
  let af := a - ai * f
  let bi := b.tdiv f
  let bf := b - bi * f
  let t := ai * bi * f + ai * bf + af * bi + (af * bf).tdiv f
  let r := (af * bf).natAbs % scaleFactor sc
  deliverRounded (addIncrement rm (signOfQuotient a b) t (classify r (scaleFactor sc))) c

/-- The leading-zero feasibility test of a left shift by 0 to 63: more than `n` redundant sign bits (R164). -/
def shiftFits (u : Word) (n : Nat) : Bool :=
  if 0 ≤ signedOf u then decide (n < leadingZeros u) else decide (n < leadingZeros (~~~u))

/-- A right shift by 1 to 63 from the shifted magnitude and the discarded bits (R164). -/
def shiftRightSplit (u : Word) (n : Nat) (rm : RoundingMode) (c : OverflowMode) : Except Exn Word :=
  let sign := signOf u
  let t := signValue sign * ((signedOf u).natAbs >>> n : Nat)
  deliverRounded (addIncrement rm sign t (classifyPow2 66 ((signedOf u).natAbs % 2 ^ n) n)) c

/-- The mode for adding an integer across zero: UP and DOWN exchanged, HALF_UP and HALF_DOWN exchanged (R181). -/
def acrossZeroMode : RoundingMode → RoundingMode
  | .up => .down
  | .down => .up
  | .ceiling => .ceiling
  | .floor => .floor
  | .halfUp => .halfDown
  | .halfDown => .halfUp
  | .halfEven => .halfEven
  | .unnecessary => .unnecessary

/-- AddScaled for `s2 > s` without a wide sum: round from the perspective of the discarded digits of `b` (R181). -/
def addScaledAcross (a b : Int) (sc sc2 : Nat) (rm : RoundingMode) (c : OverflowMode) : Except Exn Word :=
  let k : Nat := 10 ^ (sc2 - sc)
  let bi := b.tdiv k
  let bf := b - bi * k
  let t0 := a + bi
  if bf = 0 then deliver t0 c
  else if t0 = 0 ∨ ((t0 < 0) ↔ (bf < 0)) then
    deliverRounded (addIncrement rm (signOfInt bf) t0 (classify bf.natAbs k)) c
  else
    deliverRounded (addIncrement (acrossZeroMode rm) (signOfInt bf) t0 (classify bf.natAbs k)) c

end Sys2Proof.Machine
end

