-- ==== Sys2Proof/Safety.lean ====
section
/-!
DEFINITION. The terms claims use: the registers a command names, the exceptions it may raise (60_exceptions.md R192), the
same command under another overflow mode, what the status registers always say, the two ways a command ends, and the
textbook meaning of the rounding modes (40_rounding.md R81).
-/

namespace Sys2Proof.Machine

/-- The destination register, the one a completed command writes (R45, R57). -/
def destOf : Instr → Reg
  | .add rd _ _ _ => rd
  | .sub rd _ _ _ => rd
  | .mul rd _ _ _ => rd
  | .div rd _ _ _ => rd
  | .abs rd _ _ => rd
  | .neg rd _ _ => rd
  | .ucmp rd _ _ => rd
  | .ult rd _ _ => rd
  | .ugt rd _ _ => rd
  | .ule rd _ _ => rd
  | .udiv rd _ _ => rd
  | .mullo rd _ _ => rd
  | .mulhiu rd _ _ => rd
  | .mulhis rd _ _ => rd
  | .divwq rd _ _ _ _ => rd
  | .divwr rd _ _ _ => rd
  | .ldsf rd _ => rd
  | .rinc rd _ _ _ _ => rd
  | .rcls rd _ _ => rd
  | .rcls2 rd _ _ => rd
  | .rclsw rd _ _ _ => rd
  | .rminv rd _ => rd
  | .divs rd _ _ _ _ _ => rd
  | .muls rd _ _ _ _ _ => rd
  | .sqrs rd _ _ _ _ => rd
  | .sqrts rd _ _ _ => rd
  | .shl rd _ _ _ _ => rd
  | .shr rd _ _ _ _ => rd
  | .mulp10 rd _ _ _ _ => rd
  | .divp10 rd _ _ _ _ => rd
  | .adds rd _ _ _ _ _ _ => rd
  | .subs rd _ _ _ _ _ _ => rd

/-- The source registers a command names (R57). -/
def sourcesOf : Instr → List Reg
  | .add _ rs1 rs2 _ => [rs1, rs2]
  | .sub _ rs1 rs2 _ => [rs1, rs2]
  | .mul _ rs1 rs2 _ => [rs1, rs2]
  | .div _ rs1 rs2 _ => [rs1, rs2]
  | .abs _ rs1 _ => [rs1]
  | .neg _ rs1 _ => [rs1]
  | .ucmp _ rs1 rs2 => [rs1, rs2]
  | .ult _ rs1 rs2 => [rs1, rs2]
  | .ugt _ rs1 rs2 => [rs1, rs2]
  | .ule _ rs1 rs2 => [rs1, rs2]
  | .udiv _ rs1 rs2 => [rs1, rs2]
  | .mullo _ rs1 rs2 => [rs1, rs2]
  | .mulhiu _ rs1 rs2 => [rs1, rs2]
  | .mulhis _ rs1 rs2 => [rs1, rs2]
  | .divwq _ rs1 rs2 rs3 _ => [rs1, rs2, rs3]
  | .divwr _ rs1 rs2 rs3 => [rs1, rs2, rs3]
  | .ldsf _ _ => []
  | .rinc _ rs1 rs2 rs3 _ => [rs1, rs2, rs3]
  | .rcls _ rs1 rs2 => [rs1, rs2]
  | .rcls2 _ rs1 rs2 => [rs1, rs2]
  | .rclsw _ rs1 rs2 rs3 => [rs1, rs2, rs3]
  | .rminv _ _ => []
  | .divs _ rs1 rs2 _ _ _ => [rs1, rs2]
  | .muls _ rs1 rs2 _ _ _ => [rs1, rs2]
  | .sqrs _ rs1 _ _ _ => [rs1]
  | .sqrts _ rs1 _ _ => [rs1]
  | .shl _ rs1 rs2 _ _ => [rs1, rs2]
  | .shr _ rs1 rs2 _ _ => [rs1, rs2]
  | .mulp10 _ rs1 rs2 _ _ => [rs1, rs2]
  | .divp10 _ rs1 rs2 _ _ => [rs1, rs2]
  | .adds _ rs1 rs2 _ _ _ _ => [rs1, rs2]
  | .subs _ rs1 rs2 _ _ _ _ => [rs1, rs2]

/-- The command with its qualifier `c`, if it has one, set to `c`: the checked and the unchecked form of the same
command (R85, R86). -/
def withOverflowMode (c : OverflowMode) : Instr → Instr
  | .add rd rs1 rs2 _ => .add rd rs1 rs2 c
  | .sub rd rs1 rs2 _ => .sub rd rs1 rs2 c
  | .mul rd rs1 rs2 _ => .mul rd rs1 rs2 c
  | .div rd rs1 rs2 _ => .div rd rs1 rs2 c
  | .abs rd rs1 _ => .abs rd rs1 c
  | .neg rd rs1 _ => .neg rd rs1 c
  | .ucmp rd rs1 rs2 => .ucmp rd rs1 rs2
  | .ult rd rs1 rs2 => .ult rd rs1 rs2
  | .ugt rd rs1 rs2 => .ugt rd rs1 rs2
  | .ule rd rs1 rs2 => .ule rd rs1 rs2
  | .udiv rd rs1 rs2 => .udiv rd rs1 rs2
  | .mullo rd rs1 rs2 => .mullo rd rs1 rs2
  | .mulhiu rd rs1 rs2 => .mulhiu rd rs1 rs2
  | .mulhis rd rs1 rs2 => .mulhis rd rs1 rs2
  | .divwq rd rs1 rs2 rs3 _ => .divwq rd rs1 rs2 rs3 c
  | .divwr rd rs1 rs2 rs3 => .divwr rd rs1 rs2 rs3
  | .ldsf rd sc => .ldsf rd sc
  | .rinc rd rs1 rs2 rs3 rm => .rinc rd rs1 rs2 rs3 rm
  | .rcls rd rs1 rs2 => .rcls rd rs1 rs2
  | .rcls2 rd rs1 rs2 => .rcls2 rd rs1 rs2
  | .rclsw rd rs1 rs2 rs3 => .rclsw rd rs1 rs2 rs3
  | .rminv rd rm => .rminv rd rm
  | .divs rd rs1 rs2 sc rm _ => .divs rd rs1 rs2 sc rm c
  | .muls rd rs1 rs2 sc rm _ => .muls rd rs1 rs2 sc rm c
  | .sqrs rd rs1 sc rm _ => .sqrs rd rs1 sc rm c
  | .sqrts rd rs1 sc rm => .sqrts rd rs1 sc rm
  | .shl rd rs1 rs2 rm _ => .shl rd rs1 rs2 rm c
  | .shr rd rs1 rs2 rm _ => .shr rd rs1 rs2 rm c
  | .mulp10 rd rs1 rs2 rm _ => .mulp10 rd rs1 rs2 rm c
  | .divp10 rd rs1 rs2 rm _ => .divp10 rd rs1 rs2 rm c
  | .adds rd rs1 rs2 sc sc2 rm _ => .adds rd rs1 rs2 sc sc2 rm c
  | .subs rd rs1 rs2 sc sc2 rm _ => .subs rd rs1 rs2 sc sc2 rm c

/-- OVERFLOW is raised only with `c = 1` (R192). -/
def overflowIf : OverflowMode → List Exn
  | .checked => [.overflow]
  | .unchecked => []

/-- ROUNDING_NECESSARY is raised only with `rm` = UNNECESSARY (R192). -/
def roundingIf (rm : RoundingMode) : List Exn := if rm = .unnecessary then [.roundingNecessary] else []

/-- The row of R192 of a command, with its qualifiers: the exceptions it can raise. ILLEGAL_COMMAND is in no row: it is
raised by words that spell no command. -/
def exceptionsOf : Instr → List Exn
  | .add _ _ _ c => overflowIf c
  | .sub _ _ _ c => overflowIf c
  | .mul _ _ _ c => overflowIf c
  | .div _ _ _ c => .divByZero :: overflowIf c
  | .abs _ _ c => overflowIf c
  | .neg _ _ c => overflowIf c
  | .ucmp _ _ _ => []
  | .ult _ _ _ => []
  | .ugt _ _ _ => []
  | .ule _ _ _ => []
  | .udiv _ _ _ => [.divByZero]
  | .mullo _ _ _ => []
  | .mulhiu _ _ _ => []
  | .mulhis _ _ _ => []
  | .divwq _ _ _ _ c => .divByZero :: overflowIf c
  | .divwr _ _ _ _ => [.divByZero]
  | .ldsf _ _ => []
  | .rinc _ _ _ _ rm => .invalidDomain :: roundingIf rm
  | .rcls _ _ _ => []
  | .rcls2 _ _ _ => []
  | .rclsw _ _ _ _ => []
  | .rminv _ _ => []
  | .divs _ _ _ _ rm c => .divByZero :: roundingIf rm ++ overflowIf c
  | .muls _ _ _ _ rm c => roundingIf rm ++ overflowIf c
  | .sqrs _ _ _ rm c => roundingIf rm ++ overflowIf c
  | .sqrts _ _ _ rm => .invalidDomain :: roundingIf rm
  | .shl _ _ _ rm c => roundingIf rm ++ overflowIf c
  | .shr _ _ _ rm c => roundingIf rm ++ overflowIf c
  | .mulp10 _ _ _ rm c => roundingIf rm ++ overflowIf c
  | .divp10 _ _ _ rm c => roundingIf rm ++ overflowIf c
  | .adds _ _ _ _ _ rm c => roundingIf rm ++ overflowIf c
  | .subs _ _ _ _ _ rm c => roundingIf rm ++ overflowIf c

/-- The command can raise the exception (R192). -/
def mayRaise (i : Instr) (e : Exn) : Bool := (exceptionsOf i).contains e

/-- What the status registers say of the past (R23 to R25): CAUSE is 0 and nothing else is set, or CAUSE is the code of
an exception and ECMD holds a word that can raise it, an illegal word for ILLEGAL_COMMAND and otherwise the word of a
command that R192 lists for the exception. CAUSE 6 and 7 never occur. -/
def statusConsistent (s : State) : Bool :=
  match exnOfCode s.cause with
  | none => s.cause == 0 && s.flags == 0 && s.ecmd == 0
  | some .illegalCommand => (match decode s.ecmd with | .ok _ => false | .error _ => true)
  | some e => (match decode s.ecmd with | .ok i => mayRaise i e | .error _ => false)

/-- The command completes: it writes `v` to `rd`, answers 0, and changes nothing else (R43, R45). -/
def CompletesWith (i : Instr) (rd : Reg) (v : Word) (s : State) : Prop :=
  exec i s = .next { s with regs := s.regs.set rd v, reply := .response 0 }

/-- The command raises the exception of code `k`, whose FLAGS bit is `bit`: the bit is set, CAUSE is `k`, ECMD is the
command's word, the response is `k`, and nothing else changes (R193). -/
def RaisesCode (i : Instr) (k : BitVec 3) (bit : BitVec 5) (s : State) : Prop :=
  exec i s =
    .next { s with flags := s.flags ||| bit, cause := k, ecmd := encode i, reply := .response k }

/-- The two commands end alike in `s`: both complete with the same result or both raise the same exception, each on its
own word. -/
def EndAlike (i j : Instr) (s : State) : Prop :=
  ∃ result : Except Exn Word,
    exec i s = .next (s.conclude (encode i) (destOf i) result)
      ∧ exec j s = .next (s.conclude (encode j) (destOf j) result)

/-- `v` is the value of the exact `q` under a rounding mode, by the textbook table of R81. -/
def IsRoundingOf (rm : RoundingMode) (q : ℝ) (v : ℤ) : Prop :=
  match rm with
  | .up => |q| ≤ |(v : ℝ)| ∧ |(v : ℝ)| < |q| + 1 ∧ 0 ≤ q * v
  | .down => |(v : ℝ)| ≤ |q| ∧ |q| < |(v : ℝ)| + 1 ∧ 0 ≤ q * v
  | .ceiling => q ≤ v ∧ (v : ℝ) < q + 1
  | .floor => (v : ℝ) ≤ q ∧ q < v + 1
  | .halfUp => |q - v| ≤ 1 / 2 ∧ (|q - v| = 1 / 2 → |q| < |(v : ℝ)|)
  | .halfDown => |q - v| ≤ 1 / 2 ∧ (|q - v| = 1 / 2 → |(v : ℝ)| < |q|)
  | .halfEven => |q - v| ≤ 1 / 2 ∧ (|q - v| = 1 / 2 → Even v)
  | .unnecessary => q = v

/-- The command's result is the exact value `q` rounded once by `rm` and delivered under `c` (R80, R81, R85): it
completes with the rounded value (wrapped when it is out of range and `c` is UNCHECKED), raises OVERFLOW when the rounded
value is out of range under CHECKED, and raises ROUNDING_NECESSARY, whatever `c` and the range, when `rm` is UNNECESSARY
and `q` is no integer. -/
def RoundsOnce (i : Instr) (rd : Reg) (q : ℝ) (rm : RoundingMode) (c : OverflowMode) (s : State) : Prop :=
  (∀ v : ℤ, IsRoundingOf rm q v → (c = .unchecked ∨ (minValue ≤ v ∧ v ≤ maxValue)) →
      CompletesWith i rd (BitVec.ofInt 64 v) s)
    ∧ (∀ v : ℤ, IsRoundingOf rm q v → c = .checked → ¬(minValue ≤ v ∧ v ≤ maxValue) →
      RaisesCode i 1#3 0b00001#5 s)
    ∧ (rm = .unnecessary → (∀ v : ℤ, q ≠ v) → RaisesCode i 3#3 0b00100#5 s)

end Sys2Proof.Machine
end

