-- ==== Sys2Proof/Certificates/Slice0/Obligations.lean ====
section
/-!
DEFINITION. The statements for the provers, from the numbered rules of spec/ file by file. `CompletesWith`, `RaisesCode`,
`RoundsOnce`, `IsRoundingOf` are in Safety.lean.
-/

open Sys2Proof Sys2Proof.Machine

/-! ### 30_encoding.md -/

/-- R63, R65: decoding the word of a well-formed command gives the command back, with every operand. -/
def Obligations.DecodeOfEncodeIsTheCommand : Prop :=
  ∀ i : Instr, i.wf = true → decode (encode i) = .ok i

/-- R63, last sentence: a legal word decodes to a well-formed command whose encoding is that word, so two legal words of
one command are the same word. -/
def Obligations.EncodeOfDecodedWordIsTheWord : Prop :=
  (∀ (w : CommandWord) (i : Instr), decode w = .ok i → i.wf = true ∧ encode i = w)
    ∧ ∀ (w₁ w₂ : CommandWord) (i : Instr), decode w₁ = .ok i → decode w₂ = .ok i → w₁ = w₂

/-- R62: a word spells the command of a row exactly when the row's match, mask and extra constraint accept it: for every
row of the table, the word is accepted by that row exactly when it decodes to a command with that row's mnemonic; and a
word is legal exactly when some row accepts it. -/
def Obligations.LegalWordsAreTheTableRows : Prop :=
  ∀ w : CommandWord,
    ((∃ i, decode w = .ok i) ↔ ∃ m ∈ matchTable, m.accepts w = true)
      ∧ ∀ m ∈ matchTable, m.accepts w = true ↔ ∃ i, decode w = .ok i ∧ i.mnemonic = m.mnemonic

/-- R64 (a): the words of an unassigned opcode are exactly those whose bits 31:26 are 0x00, 0x07, 0x0D to 0x0F, 0x16,
0x17, 0x1D to 0x1F or 0x2A to 0x3F. -/
def Obligations.UnassignedOpcodesAreIllegal : Prop :=
  ∀ w : CommandWord,
    decode w = .error .unassignedOpcode ↔
      (w.toNat / 2 ^ 26 = 0x00 ∨ w.toNat / 2 ^ 26 = 0x07
        ∨ (0x0D ≤ w.toNat / 2 ^ 26 ∧ w.toNat / 2 ^ 26 ≤ 0x0F)
        ∨ (0x16 ≤ w.toNat / 2 ^ 26 ∧ w.toNat / 2 ^ 26 ≤ 0x17)
        ∨ (0x1D ≤ w.toNat / 2 ^ 26 ∧ w.toNat / 2 ^ 26 ≤ 0x1F)
        ∨ 0x2A ≤ w.toNat / 2 ^ 26)

/-- R66: the example words decode to the commands written beside them. -/
def Obligations.SpecWordsDecodeToTheirCommands : Prop :=
  decode 0x04000000#32 = .ok (.add 0 0 0 .unchecked)
    ∧ decode 0x04000001#32 = .ok (.add 0 0 0 .checked)
    ∧ decode 0x80C48009#32 = .ok (.divs 3 1 2 0 .halfUp .checked)
    ∧ decode 0x55000120#32 = .ok (.ldsf 4 18)
    ∧ decode 0x8C840002#32 = .ok (.sqrts 2 1 0 .down)
    ∧ decode 0x4D848601#32 = .ok (.divwq 6 1 2 3 .checked)
    ∧ decode 0x61C4860C#32 = .ok (.rinc 7 1 2 3 .halfEven)
    ∧ decode 0xA144882C#32 = .ok (.adds 5 1 2 2 4 .halfEven .unchecked)

/-! ### 20_memory.md, 10_state.md, 70_reset_and_hazards.md -/

/-- R43, CMD on a legal word: the step takes the operation off the host's sequence and performs the decoded command. -/
def Obligations.StepRunsTheDecodedCommand : Prop :=
  ∀ (s : State) (w : CommandWord) (rest : List HostOp) (i : Instr),
    s.pending = .cmd w :: rest → decode w = .ok i → step s = exec i { s with pending := rest }

/-- R64, R65, R193: CMD on an illegal word raises ILLEGAL_COMMAND (code 5, FLAGS bit 4) whatever the registers hold, and
changes nothing but the status registers and the response. -/
def Obligations.StepRaisesOnAnIllegalWord : Prop :=
  ∀ (s : State) (w : CommandWord) (rest : List HostOp) (e : IllegalWord),
    s.pending = .cmd w :: rest → decode w = .error e →
      step s =
        .next
          { s with
            pending := rest, flags := s.flags ||| 0b10000#5, cause := 5#3, ecmd := w, reply := .response 5#3 }

/-- R43, rows WR and RD: WR writes one register and returns nothing; RD changes nothing and returns the register. -/
def Obligations.HostWritesAndReadsRegisters : Prop :=
  ∀ (s : State) (r : Reg) (w : Word) (rest : List HostOp),
    (s.pending = .wr r w :: rest →
        step s = .next { s with pending := rest, regs := s.regs.set r w, reply := .nothing })
      ∧ (s.pending = .rd r :: rest → step s = .next { s with pending := rest, reply := .value s.regs[r] })

/-- R43, rows RDS and CLRF, with R23 to R25 and R45: RDS returns FLAGS, CAUSE, ECMD zero-extended, and 0 for number 3,
and changes nothing; CLRF clears the FLAGS bits of its mask and leaves CAUSE and ECMD. -/
def Obligations.HostReadsAndClearsStatus : Prop :=
  ∀ (s : State) (m : Word) (rest : List HostOp),
    (s.pending = .rds 0 :: rest → step s = .next { s with pending := rest, reply := .value (s.flags.zeroExtend 64) })
      ∧ (s.pending = .rds 1 :: rest →
        step s = .next { s with pending := rest, reply := .value (s.cause.zeroExtend 64) })
      ∧ (s.pending = .rds 2 :: rest → step s = .next { s with pending := rest, reply := .value (s.ecmd.zeroExtend 64) })
      ∧ (s.pending = .rds 3 :: rest → step s = .next { s with pending := rest, reply := .value 0 })
      ∧ (s.pending = .clrf m :: rest →
        step s =
          .next { s with pending := rest, flags := s.flags &&& ~~~(m.extractLsb' 0 5), reply := .nothing })

/-- R28, R210: RESET clears FLAGS, CAUSE and ECMD and leaves the host's later operations. Nothing is said of the general
registers, whose values after reset the spec leaves open (log entry 1). -/
def Obligations.ResetOperationClearsStatus : Prop :=
  ∀ (s : State) (rest : List HostOp), s.pending = .reset :: rest →
    ∃ t, step s = .next t ∧ t.flags = 0 ∧ t.cause = 0 ∧ t.ecmd = 0 ∧ t.pending = rest

/-- R28: after reset FLAGS, CAUSE and ECMD are 0. -/
def Obligations.ResetStateHasClearStatus : Prop :=
  State.reset.flags = 0 ∧ State.reset.cause = 0 ∧ State.reset.ecmd = 0

/-- R217: every host operation finishes. From any state, `n` steps end in a next state in which the first `n` operations
of the host's sequence have been performed. -/
def Obligations.EveryHostOperationFinishes : Prop :=
  ∀ (n : Nat) (s : State), ∃ t : State, Sys2Proof.core.run n s = .next t ∧ t.pending = s.pending.drop n

/-- R23 to R25: at reset the status registers are consistent (`statusConsistent`). -/
def Obligations.StatusConsistentAtReset : Prop := statusConsistent State.reset = true

/-- R23 to R25, R192, R193: every step keeps the status registers consistent: CAUSE is 0 with nothing set, or it is the
code (1 to 5) of an exception and ECMD holds a word that can raise that exception. -/
def Obligations.StepKeepsStatusConsistent : Prop :=
  ∀ s t : State, statusConsistent s = true → step s = .next t → statusConsistent t = true

/-- R45, R190, R193, R197: every command, on every state, either completes (response 0), changing at most its
destination register and no status register, or raises one exception of code `k` (1 to 4), changing no general register:
FLAGS gains bit `k - 1`, CAUSE is `k`, ECMD is its word. -/
def Obligations.CommandCompletesOrRaises : Prop :=
  ∀ (i : Instr) (s : State), ∃ t, exec i s = .next t ∧ t.pending = s.pending ∧ t.resets = s.resets ∧
    ((t.reply = .response 0 ∧ t.flags = s.flags ∧ t.cause = s.cause ∧ t.ecmd = s.ecmd
        ∧ ∀ r, r ≠ destOf i → t.reg r = s.reg r)
      ∨ ∃ k : BitVec 3, 1 ≤ k.toNat ∧ k.toNat ≤ 4 ∧ t.reply = .response k ∧ t.regs = s.regs
        ∧ t.flags = s.flags ||| (1#5 <<< (k.toNat - 1)) ∧ t.cause = k ∧ t.ecmd = encode i)

/-- R192: a command raises only an exception that its row of the table lists. -/
def Obligations.CommandsRaiseOnlyWhatTheTableLists : Prop :=
  ∀ (i : Instr) (s t : State) (e : Exn),
    exec i s = .next t → t.reply = .response (exnCode e) → mayRaise i e = true

/-- R20: how a command ends is a function of the command and of the registers it names as sources: two states that agree
on those registers end it alike. -/
def Obligations.ResultDependsOnlyOnNamedSources : Prop :=
  ∀ (i : Instr) (s₁ s₂ : State), (∀ r ∈ sourcesOf i, s₁.reg r = s₂.reg r) →
    ∃ result : Except Exn Word,
      exec i s₁ = .next (s₁.conclude (encode i) (destOf i) result)
        ∧ exec i s₂ = .next (s₂.conclude (encode i) (destOf i) result)

/-- R85, R199: the checked form of a command that completes is the unchecked form; where the checked form raises
OVERFLOW the unchecked form completes and leaves the status registers; any other exception is raised by both; the
unchecked form never raises OVERFLOW. -/
def Obligations.CheckedAndUncheckedAgree : Prop :=
  ∀ (i : Instr) (s tc tu : State),
    exec (withOverflowMode .checked i) s = .next tc → exec (withOverflowMode .unchecked i) s = .next tu →
      (tc.reply = .response 0 → tu = tc)
        ∧ (tc.reply = .response 1 →
          tu.reply = .response 0 ∧ tu.flags = s.flags ∧ tu.cause = s.cause ∧ tu.ecmd = s.ecmd)
        ∧ (∀ k, k ≠ 0 → k ≠ 1 → (tc.reply = .response k ↔ tu.reply = .response k))
        ∧ tu.reply ≠ .response 1

/-- R23 to R25, R196: performing a host operation, a FLAGS bit is gained only by a raising CMD, which gains no other bit
than bit `k - 1` of its code `k`; a FLAGS bit is lost only by CLRF or RESET; CAUSE or ECMD change only by RESET or by a
raising CMD, which leaves its code and its word there. -/
def Obligations.StatusChangesOnlyByRaiseClearReset : Prop :=
  ∀ (s t : State) (op : HostOp) (rest : List HostOp), s.pending = op :: rest → step s = .next t →
    (t.flags &&& ~~~s.flags ≠ 0 →
        ∃ w k, op = .cmd w ∧ k ≠ 0 ∧ t.reply = .response k ∧ t.flags &&& ~~~s.flags = 1#5 <<< (k.toNat - 1))
      ∧ (s.flags &&& ~~~t.flags ≠ 0 → op = .reset ∨ ∃ m, op = .clrf m)
      ∧ (t.cause ≠ s.cause ∨ t.ecmd ≠ s.ecmd →
        op = .reset ∨ ∃ w, op = .cmd w ∧ t.cause ≠ 0 ∧ t.reply = .response t.cause ∧ t.ecmd = w)

/-- R21, R43, R45, R197: performing a host operation, a general register changes only by RESET, by WR of that register,
or by a completed command whose destination it is. -/
def Obligations.RegistersChangeOnlyByWriteCompletionReset : Prop :=
  ∀ (s t : State) (op : HostOp) (rest : List HostOp) (r : Reg), s.pending = op :: rest → step s = .next t →
    t.reg r ≠ s.reg r →
      op = .reset ∨ (∃ w, op = .wr r w ∧ t.reg r = w)
        ∨ ∃ w i, op = .cmd w ∧ decode w = .ok i ∧ destOf i = r ∧ t.reply = .response 0

/-! ### 40_rounding.md -/

/-- R81, R84: `Round(rm, n, d)` gives `v` exactly when `v` is the textbook rounding of the real number `n / d`, and it
raises, ROUNDING_NECESSARY and nothing else, exactly when `rm` is UNNECESSARY and `d` does not divide `n`. Six modes have
the meaning R81 marks as general knowledge (log entry 17). -/
def Obligations.RoundIsTheTextbookRounding : Prop :=
  ∀ (rm : RoundingMode) (n d : Int), d ≠ 0 →
    (∀ v : Int, roundQuotient rm n d = .ok v ↔ IsRoundingOf rm ((n : ℝ) / d) v)
      ∧ ∀ e : Exn, roundQuotient rm n d = .error e ↔ e = .roundingNecessary ∧ rm = .unnecessary ∧ ¬d ∣ n

/-- R91: `Round(RMINV(rm), -n, d) = -Round(rm, n, d)`, and both raise alike; inverting twice gives the mode back. -/
def Obligations.RoundOfTheNegatedQuantity : Prop :=
  ∀ (rm : RoundingMode) (n d : Int), d ≠ 0 →
    invertMode (invertMode rm) = rm
      ∧ (∀ v : Int, roundQuotient rm n d = .ok v ↔ roundQuotient (invertMode rm) (-n) d = .ok (-v))
      ∧ ∀ e : Exn, roundQuotient rm n d = .error e ↔ roundQuotient (invertMode rm) (-n) d = .error e

/-- R93: (a) an exact quotient is the result in every mode; (b) on a tie HALF_EVEN gives an even result; (c) the result
is within one unit of the truncated value and less than one unit from the exact value. -/
def Obligations.RoundingKeepsItsThreeProperties : Prop :=
  ∀ (rm : RoundingMode) (n d : Int), d ≠ 0 →
    (d ∣ n → roundQuotient rm n d = .ok (n / d))
      ∧ (2 * (n.natAbs % d.natAbs) = d.natAbs → ∃ v : Int, roundQuotient .halfEven n d = .ok v ∧ Even v)
      ∧ ∀ v : Int, roundQuotient rm n d = .ok v → |v - n.tdiv d| ≤ 1 ∧ |v * d - n| < |d|

/-- R92: classifying by `divisor >> 1` and the divisor's lowest bit equals Classify on all 64-bit words. -/
def Obligations.HalvedClassificationIsClassify : Prop :=
  ∀ r d : Word, classifyHalved r d = classify r.toNat d.toNat

/-- R87 with R83: RINC by part code. The sign is bit 63 of `x[rs1]`, the parity bit 0 of `x[rs2]`, the part the code in
`x[rs3]`; code 0 gives 0 in every mode, a code above 3 raises INVALID_DOMAIN in every mode, and UNNECESSARY raises
ROUNDING_NECESSARY on codes 1 to 3. -/
def Obligations.RincFollowsTheIncrementTable : Prop :=
  ∀ (rd rs1 rs2 rs3 : Reg) (rm : RoundingMode) (s : State) (p : Nat) (sign : Word),
    (s.reg rs3).toNat = p → sign = (if (s.reg rs1).getLsbD 63 then -1#64 else 1#64) →
      (p = 0 → CompletesWith (.rinc rd rs1 rs2 rs3 rm) rd 0 s)
        ∧ (1 ≤ p → p ≤ 3 →
          match rm with
          | .up => CompletesWith (.rinc rd rs1 rs2 rs3 .up) rd sign s
          | .down => CompletesWith (.rinc rd rs1 rs2 rs3 .down) rd 0 s
          | .ceiling => CompletesWith (.rinc rd rs1 rs2 rs3 .ceiling) rd (if sign = 1 then 1 else 0) s
          | .floor => CompletesWith (.rinc rd rs1 rs2 rs3 .floor) rd (if sign = 1 then 0 else -1#64) s
          | .halfUp => CompletesWith (.rinc rd rs1 rs2 rs3 .halfUp) rd (if p = 1 then 0 else sign) s
          | .halfDown => CompletesWith (.rinc rd rs1 rs2 rs3 .halfDown) rd (if p = 3 then sign else 0) s
          | .halfEven =>
            CompletesWith (.rinc rd rs1 rs2 rs3 .halfEven) rd
              (if p = 3 ∨ (p = 2 ∧ (s.reg rs2).getLsbD 0 = true) then sign else 0) s
          | .unnecessary => RaisesCode (.rinc rd rs1 rs2 rs3 .unnecessary) 3#3 0b00100#5 s)
        ∧ (3 < p → RaisesCode (.rinc rd rs1 rs2 rs3 rm) 4#3 0b01000#5 s)

/-- R88 with R82: RCLS writes 0, 1, 2 or 3 for a remainder that is zero, below, at, or above half the divisor, both read
as unsigned; it never raises. -/
def Obligations.RclsWritesThePartCode : Prop :=
  ∀ (rd rs1 rs2 : Reg) (s : State),
    CompletesWith (.rcls rd rs1 rs2) rd
      (if s.reg rs1 = 0 then 0
       else if 2 * (s.reg rs1).toNat < (s.reg rs2).toNat then 1
       else if 2 * (s.reg rs1).toNat = (s.reg rs2).toNat then 2
       else 3) s

/-- R89, R90: RCLS2 and RCLSW classify against `2^n` for EVERY exponent `n` a register can hold, none limited. -/
def Obligations.PowerOfTwoClassificationIsUnlimited : Prop :=
  ∀ (rd rs1 rs2 rs3 : Reg) (s : State),
    CompletesWith (.rcls2 rd rs1 rs2) rd
        (BitVec.ofNat 64 (partCode (classify (s.reg rs1).toNat (2 ^ (s.reg rs2).toNat)))) s
      ∧ CompletesWith (.rclsw rd rs1 rs2 rs3) rd
        (BitVec.ofNat 64
          (partCode (classify (s.reg rs1 ++ s.reg rs2).toNat (2 ^ (s.reg rs3).toNat)))) s

/-- R91: RMINV writes the code of the mode, with CEILING (2) and FLOOR (3) exchanged; it never raises. -/
def Obligations.RminvExchangesCeilingAndFloor : Prop :=
  ∀ (rd : Reg) (s : State),
    CompletesWith (.rminv rd .up) rd 0 s ∧ CompletesWith (.rminv rd .down) rd 1 s
      ∧ CompletesWith (.rminv rd .ceiling) rd 3 s ∧ CompletesWith (.rminv rd .floor) rd 2 s
      ∧ CompletesWith (.rminv rd .halfUp) rd 4 s ∧ CompletesWith (.rminv rd .halfDown) rd 5 s
      ∧ CompletesWith (.rminv rd .halfEven) rd 6 s ∧ CompletesWith (.rminv rd .unnecessary) rd 7 s

/-! ### 41_checked64.md -/

/-- R101, R102: ADD and SUB write the 64-bit sum and difference unless the exact signed result is out of range under
CHECKED, where they raise OVERFLOW. -/
def Obligations.AddAndSubWriteOrOverflow : Prop :=
  ∀ (rd rs1 rs2 : Reg) (c : OverflowMode) (s : State) (a b : Int),
    a = (s.reg rs1).toInt → b = (s.reg rs2).toInt →
      ((c = .unchecked ∨ (minValue ≤ a + b ∧ a + b ≤ maxValue)) →
          CompletesWith (.add rd rs1 rs2 c) rd (s.reg rs1 + s.reg rs2) s)
        ∧ (c = .checked → ¬(minValue ≤ a + b ∧ a + b ≤ maxValue) →
          RaisesCode (.add rd rs1 rs2 c) 1#3 0b00001#5 s)
        ∧ ((c = .unchecked ∨ (minValue ≤ a - b ∧ a - b ≤ maxValue)) →
          CompletesWith (.sub rd rs1 rs2 c) rd (s.reg rs1 - s.reg rs2) s)
        ∧ (c = .checked → ¬(minValue ≤ a - b ∧ a - b ≤ maxValue) →
          RaisesCode (.sub rd rs1 rs2 c) 1#3 0b00001#5 s)

/-- R103: MUL writes the low 64 bits of the product unless the exact signed product is out of range under CHECKED, where
it raises OVERFLOW. -/
def Obligations.MulWritesOrOverflows : Prop :=
  ∀ (rd rs1 rs2 : Reg) (c : OverflowMode) (s : State) (v : Int),
    v = (s.reg rs1).toInt * (s.reg rs2).toInt →
      ((c = .unchecked ∨ (minValue ≤ v ∧ v ≤ maxValue)) →
          CompletesWith (.mul rd rs1 rs2 c) rd (s.reg rs1 * s.reg rs2) s)
        ∧ (c = .checked → ¬(minValue ≤ v ∧ v ≤ maxValue) → RaisesCode (.mul rd rs1 rs2 c) 1#3 0b00001#5 s)

/-- R104: DIV writes the truncated signed quotient, raises DIV_BY_ZERO on a zero divisor whatever `c` is, and raises
OVERFLOW only for `MIN_VALUE / -1` under CHECKED (unchecked it gives MIN_VALUE). -/
def Obligations.DivTruncatesOrRaises : Prop :=
  ∀ (rd rs1 rs2 : Reg) (c : OverflowMode) (s : State),
    (s.reg rs2 ≠ 0 → ¬(c = .checked ∧ s.reg rs1 = 0x8000000000000000#64 ∧ s.reg rs2 = -1#64) →
        CompletesWith (.div rd rs1 rs2 c) rd ((s.reg rs1).sdiv (s.reg rs2)) s)
      ∧ (s.reg rs2 = 0 → RaisesCode (.div rd rs1 rs2 c) 2#3 0b00010#5 s)
      ∧ (c = .checked → s.reg rs1 = 0x8000000000000000#64 → s.reg rs2 = -1#64 →
        RaisesCode (.div rd rs1 rs2 c) 1#3 0b00001#5 s)

/-- R105, R106: ABS and NEG write the magnitude and the negation (of MIN_VALUE, unchecked: MIN_VALUE) and raise OVERFLOW
for MIN_VALUE under CHECKED. -/
def Obligations.AbsAndNegWriteOrOverflow : Prop :=
  ∀ (rd rs1 : Reg) (c : OverflowMode) (s : State),
    (¬(c = .checked ∧ s.reg rs1 = 0x8000000000000000#64) →
        CompletesWith (.abs rd rs1 c) rd (if (s.reg rs1).getLsbD 63 then -(s.reg rs1) else s.reg rs1) s
          ∧ CompletesWith (.neg rd rs1 c) rd (-(s.reg rs1)) s)
      ∧ (c = .checked → s.reg rs1 = 0x8000000000000000#64 →
        RaisesCode (.abs rd rs1 c) 1#3 0b00001#5 s ∧ RaisesCode (.neg rd rs1 c) 1#3 0b00001#5 s)

/-- R107: the sign-based tests of add and subtract and the division test of multiply say exactly when the exact result is
out of range. -/
def Obligations.OverflowTestsAreExact : Prop :=
  ∀ a b : Word,
    (addOverflows a b = true ↔ ¬(minValue ≤ a.toInt + b.toInt ∧ a.toInt + b.toInt ≤ maxValue))
      ∧ (subOverflows a b = true ↔ ¬(minValue ≤ a.toInt - b.toInt ∧ a.toInt - b.toInt ≤ maxValue))
      ∧ (mulOverflows a b = true ↔ ¬(minValue ≤ a.toInt * b.toInt ∧ a.toInt * b.toInt ≤ maxValue))

/-! ### 42_unsigned64.md -/

/-- R116 to R119: the four unsigned comparisons, which never raise: UCMP -1, 0 or +1; ULT, UGT, ULE 1 or 0. -/
def Obligations.UnsignedComparisonsWriteTheirVerdict : Prop :=
  ∀ (rd rs1 rs2 : Reg) (s : State) (ua ub : Nat), ua = (s.reg rs1).toNat → ub = (s.reg rs2).toNat →
    CompletesWith (.ucmp rd rs1 rs2) rd (if ua < ub then 0xFFFFFFFFFFFFFFFF#64 else if ua = ub then 0 else 1) s
      ∧ CompletesWith (.ult rd rs1 rs2) rd (if ua < ub then 1 else 0) s
      ∧ CompletesWith (.ugt rd rs1 rs2) rd (if ub < ua then 1 else 0) s
      ∧ CompletesWith (.ule rd rs1 rs2) rd (if ua ≤ ub then 1 else 0) s

/-- R120: UDIV writes the unsigned quotient and raises DIV_BY_ZERO on a zero divisor. -/
def Obligations.UdivWritesTheUnsignedQuotient : Prop :=
  ∀ (rd rs1 rs2 : Reg) (s : State),
    (s.reg rs2 ≠ 0 → CompletesWith (.udiv rd rs1 rs2) rd (s.reg rs1 / s.reg rs2) s)
      ∧ (s.reg rs2 = 0 → RaisesCode (.udiv rd rs1 rs2) 2#3 0b00010#5 s)

/-- R120: the remainder by UDIV, MULLO and SUB.U: three commands leave the unsigned remainder in `q4`. -/
def Obligations.UdivThenMulloThenSubGivesTheRemainder : Prop :=
  ∀ (q1 q2 q3 q4 : Reg) (s t1 t2 : State), q3 ≠ q1 → q3 ≠ q2 → q4 ≠ q1 → s.reg q2 ≠ 0 →
    exec (.udiv q3 q1 q2) s = .next t1 → exec (.mullo q4 q3 q2) t1 = .next t2 →
      ∃ t3, exec (.sub q4 q1 q4 .unchecked) t2 = .next t3 ∧ t3.reg q4 = s.reg q1 % s.reg q2

/-- R121: the sign-flip comparison and the halving division equal the unsigned comparison and quotient. -/
def Obligations.UnsignedRealisationsAreExact : Prop :=
  ∀ a b : Word,
    (lessByFlip a b = true ↔ a.toNat < b.toNat)
      ∧ (b ≠ 0 → (divideByHalving a b).toNat = a.toNat / b.toNat)

/-! ### 43_wide128.md -/

/-- R126 to R128: MULLO, MULHIU and MULHIS write the low half, and the high half of the unsigned and of the signed
128-bit product; they never raise. -/
def Obligations.WideningMultiplyWritesTheHalves : Prop :=
  ∀ (rd rs1 rs2 : Reg) (s : State) (x y : Word), x = s.reg rs1 → y = s.reg rs2 →
    CompletesWith (.mullo rd rs1 rs2) rd ((x.zeroExtend 128 * y.zeroExtend 128).extractLsb' 0 64) s
      ∧ CompletesWith (.mulhiu rd rs1 rs2) rd ((x.zeroExtend 128 * y.zeroExtend 128).extractLsb' 64 64) s
      ∧ CompletesWith (.mulhis rd rs1 rs2) rd ((x.signExtend 128 * y.signExtend 128).extractLsb' 64 64) s

/-- R129, R130: DIVWQ and DIVWR on the 128-bit dividend `hi:lo`: the low 64 bits of the quotient, and the remainder.
DIVWQ raises OVERFLOW under CHECKED exactly when `hi` is not below the divisor; both raise DIV_BY_ZERO on a zero
divisor. -/
def Obligations.WideDivisionWritesQuotientAndRemainder : Prop :=
  ∀ (rd rs1 rs2 rs3 : Reg) (c : OverflowMode) (s : State) (hi lo d : Word),
    hi = s.reg rs1 → lo = s.reg rs2 → d = s.reg rs3 →
      (d ≠ 0 → (c = .unchecked ∨ hi.toNat < d.toNat) →
          CompletesWith (.divwq rd rs1 rs2 rs3 c) rd (((hi ++ lo) / d.zeroExtend 128).extractLsb' 0 64) s)
        ∧ (d ≠ 0 → c = .checked → d.toNat ≤ hi.toNat → RaisesCode (.divwq rd rs1 rs2 rs3 c) 1#3 0b00001#5 s)
        ∧ (d = 0 → RaisesCode (.divwq rd rs1 rs2 rs3 c) 2#3 0b00010#5 s)
        ∧ (d ≠ 0 → CompletesWith (.divwr rd rs1 rs2 rs3) rd (((hi ++ lo) % d.zeroExtend 128).extractLsb' 0 64) s)
        ∧ (d = 0 → RaisesCode (.divwr rd rs1 rs2 rs3) 2#3 0b00010#5 s)

/-- R131: LDSF writes `10^s` for every legal scale. -/
def Obligations.LdsfWritesThePowerOfTen : Prop :=
  ∀ (rd : Reg) (sc : Nat) (s : State) (v : Word), sc ≤ 18 → v.toNat = 10 ^ sc → CompletesWith (.ldsf rd sc) rd v s

/-- R27: the 19 rows of the table, SF, MAXI, MINI, NLZ. -/
def Obligations.ScaleTableHasTheNineteenRows : Prop :=
  (List.range 19).map (fun k => (scaleFactor k, maxIntegral k, minIntegral k, scaleLeadingZeros k)) =
    [ (1, 9223372036854775807, -9223372036854775808, 63),
      (10, 922337203685477580, -922337203685477580, 60),
      (100, 92233720368547758, -92233720368547758, 57),
      (1000, 9223372036854775, -9223372036854775, 54),
      (10000, 922337203685477, -922337203685477, 50),
      (100000, 92233720368547, -92233720368547, 47),
      (1000000, 9223372036854, -9223372036854, 44),
      (10000000, 922337203685, -922337203685, 40),
      (100000000, 92233720368, -92233720368, 37),
      (1000000000, 9223372036, -9223372036, 34),
      (10000000000, 922337203, -922337203, 30),
      (100000000000, 92233720, -92233720, 27),
      (1000000000000, 9223372, -9223372, 24),
      (10000000000000, 922337, -922337, 20),
      (100000000000000, 92233, -92233, 17),
      (1000000000000000, 9223, -9223, 14),
      (10000000000000000, 922, -922, 10),
      (100000000000000000, 92, -92, 7),
      (1000000000000000000, 9, -9, 4) ]

/-- R132: the four 32×32 partial products give the 128-bit product. -/
def Obligations.PartialProductsGiveTheProduct : Prop :=
  ∀ a b : Word, (mulWide a b).1.toNat * 2 ^ 64 + (mulWide a b).2.toNat = a.toNat * b.toNat

/-- R133: the normalised division with two guessed digits, each corrected at most twice, gives quotient and remainder. -/
def Obligations.NormalisedDivisionIsExact : Prop :=
  ∀ u1 u0 v : Nat, u1 < v → u0 < 2 ^ 64 → v < 2 ^ 64 →
    div128by64 u1 u0 v = ((u1 * 2 ^ 64 + u0) / v, (u1 * 2 ^ 64 + u0) % v)

/-! ### 44_division.md -/

/-- R140, at every scale 0 to 18: DIVS raises DIV_BY_ZERO on a zero divisor in every mode, and otherwise its result is the
exact `a * 10^s / b` rounded once and delivered. -/
def Obligations.DivsRoundsTheExactQuotientOnce : Prop :=
  ∀ (rd rs1 rs2 : Reg) (sc : Nat) (rm : RoundingMode) (c : OverflowMode) (s : State), sc ≤ 18 →
    (s.reg rs2 = 0 → RaisesCode (.divs rd rs1 rs2 sc rm c) 2#3 0b00010#5 s)
      ∧ (s.reg rs2 ≠ 0 →
        RoundsOnce (.divs rd rs1 rs2 sc rm c) rd
          (((s.reg rs1).toInt : ℝ) * 10 ^ sc / ((s.reg rs2).toInt : ℝ)) rm c s)

/-- R142: the rows of the special-case table of division, at every legal scale, mode and overflow mode: a zero divisor,
a zero dividend, dividing by the number one (`10^s`) and by minus one, by raw 1 and raw -1, a value by itself and by its
negation. -/
def Obligations.DivsSpecialCases : Prop :=
  ∀ (rd rs1 rs2 : Reg) (sc : Nat) (rm : RoundingMode) (c : OverflowMode) (s : State) (a b : Int),
    sc ≤ 18 → a = (s.reg rs1).toInt → b = (s.reg rs2).toInt →
      (b = 0 → RaisesCode (.divs rd rs1 rs2 sc rm c) 2#3 0b00010#5 s)
        ∧ (a = 0 → b ≠ 0 → CompletesWith (.divs rd rs1 rs2 sc rm c) rd 0 s)
        ∧ (b = 10 ^ sc → CompletesWith (.divs rd rs1 rs2 sc rm c) rd (s.reg rs1) s)
        ∧ (b = -10 ^ sc → (c = .unchecked ∨ a ≠ minValue) →
          CompletesWith (.divs rd rs1 rs2 sc rm c) rd (-(s.reg rs1)) s)
        ∧ (b = -10 ^ sc → c = .checked → a = minValue → RaisesCode (.divs rd rs1 rs2 sc rm c) 1#3 0b00001#5 s)
        ∧ (b = 1 ∨ b = -1 → (c = .unchecked ∨ (minValue ≤ b * a * 10 ^ sc ∧ b * a * 10 ^ sc ≤ maxValue)) →
          CompletesWith (.divs rd rs1 rs2 sc rm c) rd (BitVec.ofInt 64 (b * a * 10 ^ sc)) s)
        ∧ (b = 1 ∨ b = -1 → c = .checked → ¬(minValue ≤ b * a * 10 ^ sc ∧ b * a * 10 ^ sc ≤ maxValue) →
          RaisesCode (.divs rd rs1 rs2 sc rm c) 1#3 0b00001#5 s)
        ∧ (a = b → b ≠ 0 → CompletesWith (.divs rd rs1 rs2 sc rm c) rd (BitVec.ofNat 64 (10 ^ sc)) s)
        ∧ (a = -b → b ≠ 0 → CompletesWith (.divs rd rs1 rs2 sc rm c) rd (-BitVec.ofNat 64 (10 ^ sc)) s)

/-- R141: the document's division by steps 2 to 4 (power-of-ten divisor, direct path, 128-bit path) equals R140 for all
operands with a non-zero divisor. -/
def Obligations.SplitDivisionIsScaledDivision : Prop :=
  ∀ (x y : Word) (sc : Nat) (rm : RoundingMode) (c : OverflowMode), sc ≤ 18 → y ≠ 0 →
    divideScaledSplit x.toInt y.toInt sc rm c = divideScaled x.toInt y.toInt sc rm c

/-- R143 (b): dividing under DOWN and multiplying back, when neither raises, leaves an error below `|b|/10^s + 1` units
and a magnitude not above that of the dividend. -/
def Obligations.DivideThenMultiplyBound : Prop :=
  ∀ (q1 q2 q3 q4 : Reg) (sc : Nat) (s t1 t2 : State) (a b p : Int),
    q3 ≠ q2 → a = (s.reg q1).toInt → b = (s.reg q2).toInt → b ≠ 0 →
      exec (.divs q3 q1 q2 sc .down .checked) s = .next t1 → t1.reply = .response 0 →
      exec (.muls q4 q3 q2 sc .down .checked) t1 = .next t2 → t2.reply = .response 0 →
      p = (t2.reg q4).toInt →
        |a - p| * 10 ^ sc < |b| + 10 ^ sc ∧ |p| ≤ |a|

/-! ### 45_multiplicative.md -/

/-- R150, at every scale 0 to 18: the result of MULS is the exact `a * b / 10^s` rounded once and delivered. -/
def Obligations.MulsRoundsTheExactProductOnce : Prop :=
  ∀ (rd rs1 rs2 : Reg) (sc : Nat) (rm : RoundingMode) (c : OverflowMode) (s : State), sc ≤ 18 →
    RoundsOnce (.muls rd rs1 rs2 sc rm c) rd
      (((s.reg rs1).toInt : ℝ) * ((s.reg rs2).toInt : ℝ) / 10 ^ sc) rm c s

/-- R151, at every scale 0 to 18: the result of SQRS is the exact `a * a / 10^s` rounded once and delivered. -/
def Obligations.SqrsRoundsTheExactSquareOnce : Prop :=
  ∀ (rd rs1 : Reg) (sc : Nat) (rm : RoundingMode) (c : OverflowMode) (s : State), sc ≤ 18 →
    RoundsOnce (.sqrs rd rs1 sc rm c) rd (((s.reg rs1).toInt : ℝ) ^ 2 / 10 ^ sc) rm c s

/-- R153: the rows of the special-case table of multiplication, at every legal scale, mode and overflow mode: a zero
factor, the number one (`10^s`) and minus one as either factor, equal operands, and raw 1 or -1, which is no shortcut. -/
def Obligations.MulsSpecialCases : Prop :=
  ∀ (rd rs1 rs2 : Reg) (sc : Nat) (rm : RoundingMode) (c : OverflowMode) (s : State) (a b : Int),
    sc ≤ 18 → a = (s.reg rs1).toInt → b = (s.reg rs2).toInt →
      (a = 0 ∨ b = 0 → CompletesWith (.muls rd rs1 rs2 sc rm c) rd 0 s)
        ∧ (b = 10 ^ sc → CompletesWith (.muls rd rs1 rs2 sc rm c) rd (s.reg rs1) s)
        ∧ (a = 10 ^ sc → CompletesWith (.muls rd rs1 rs2 sc rm c) rd (s.reg rs2) s)
        ∧ (b = -10 ^ sc → (c = .unchecked ∨ a ≠ minValue) →
          CompletesWith (.muls rd rs1 rs2 sc rm c) rd (-(s.reg rs1)) s)
        ∧ (b = -10 ^ sc → c = .checked → a = minValue → RaisesCode (.muls rd rs1 rs2 sc rm c) 1#3 0b00001#5 s)
        ∧ (a = -10 ^ sc → (c = .unchecked ∨ b ≠ minValue) →
          CompletesWith (.muls rd rs1 rs2 sc rm c) rd (-(s.reg rs2)) s)
        ∧ (a = -10 ^ sc → c = .checked → b = minValue → RaisesCode (.muls rd rs1 rs2 sc rm c) 1#3 0b00001#5 s)
        ∧ (a = b → EndAlike (.muls rd rs1 rs2 sc rm c) (.sqrs rd rs1 sc rm c) s)
        ∧ (b = 1 ∨ b = -1 → RoundsOnce (.muls rd rs1 rs2 sc rm c) rd ((b : ℝ) * a / 10 ^ sc) rm c s)
        ∧ (a = 1 ∨ a = -1 → RoundsOnce (.muls rd rs1 rs2 sc rm c) rd ((a : ℝ) * b / 10 ^ sc) rm c s)

/-- R152 (c): the integral/fractional split equals R150 for every scale up to 9. -/
def Obligations.SplitMultiplicationIsScaledMultiplication : Prop :=
  ∀ (x y : Word) (sc : Nat) (rm : RoundingMode) (c : OverflowMode), sc ≤ 9 →
    multiplyScaledSplit x.toInt y.toInt sc rm c = multiplyScaled x.toInt y.toInt sc rm c

/-! ### 46_root_shift.md -/

/-- R160: SQRTS raises INVALID_DOMAIN on a negative operand in every mode; otherwise its result is the exact
`sqrt(a * 10^s)` rounded once, and it never raises OVERFLOW. -/
def Obligations.SqrtsRoundsTheExactRootOnce : Prop :=
  ∀ (rd rs1 : Reg) (sc : Nat) (rm : RoundingMode) (s : State) (q : ℝ), sc ≤ 18 →
    q = Real.sqrt (((s.reg rs1).toInt : ℝ) * 10 ^ sc) →
      ((s.reg rs1).toInt < 0 → RaisesCode (.sqrts rd rs1 sc rm) 4#3 0b01000#5 s)
        ∧ (0 ≤ (s.reg rs1).toInt → ∀ v : ℤ, IsRoundingOf rm q v →
          (0 ≤ v ∧ v ≤ maxValue) ∧ CompletesWith (.sqrts rd rs1 sc rm) rd (BitVec.ofInt 64 v) s)
        ∧ (0 ≤ (s.reg rs1).toInt → rm = .unnecessary → (∀ v : ℤ, q ≠ v) →
          RaisesCode (.sqrts rd rs1 sc rm) 3#3 0b00100#5 s)

/-- R161: the restoring loop over `k` pairs of bits gives the integer root and its remainder. -/
def Obligations.RestoringLoopIsTheIntegerRoot : Prop :=
  ∀ k n : Nat, n < 4 ^ k →
    (sqrtLoop k n).1 * (sqrtLoop k n).1 + (sqrtLoop k n).2 = n ∧ (sqrtLoop k n).2 ≤ 2 * (sqrtLoop k n).1

/-- R166: the result `q` of SQRTS brackets the radicand: in every mode `q - 1 < sqrt < q + 1`, and under DOWN and FLOOR
`q^2 <= a * 10^s < (q+1)^2`. -/
def Obligations.SqrtsBracketsTheRadicand : Prop :=
  ∀ (rd rs1 : Reg) (sc : Nat) (rm : RoundingMode) (s t : State) (n q : Nat), sc ≤ 18 →
    (n : Int) = (s.reg rs1).toInt * 10 ^ sc → exec (.sqrts rd rs1 sc rm) s = .next t → t.reply = .response 0 →
      q = (t.reg rd).toNat →
        n < (q + 1) ^ 2 ∧ (q ≠ 0 → (q - 1) ^ 2 < n) ∧ (rm = .down ∨ rm = .floor → q ^ 2 ≤ n)

/-- R162, R163 with R165: for every signed amount `n`, SHL gives `u * 2^n` and SHR `u * 2^(-n)`, rounded once and
delivered: no amount is reduced or limited. -/
def Obligations.ShiftsScaleByAnyPowerOfTwo : Prop :=
  ∀ (rd rs1 rs2 : Reg) (rm : RoundingMode) (c : OverflowMode) (s : State) (u n : Int),
    u = (s.reg rs1).toInt → n = (s.reg rs2).toInt →
      RoundsOnce (.shl rd rs1 rs2 rm c) rd ((u : ℝ) * (2 : ℝ) ^ n) rm c s
        ∧ RoundsOnce (.shr rd rs1 rs2 rm c) rd ((u : ℝ) * (2 : ℝ) ^ (-n)) rm c s

/-- R164: the leading-zero test says exactly when a left shift by 0 to 63 stays in range, and the right shift by 1 to 63
from magnitude and discarded bits equals Scale2. -/
def Obligations.ShiftRealisationsAreExact : Prop :=
  ∀ (u : Word) (n : Nat) (rm : RoundingMode) (c : OverflowMode), n ≤ 63 →
    (shiftFits u n = true ↔ minValue ≤ u.toInt * 2 ^ n ∧ u.toInt * 2 ^ n ≤ maxValue)
      ∧ (1 ≤ n → shiftRightSplit u n rm c = scale2 u.toInt (-(n : Int)) rm c)

/-! ### 47_pow10_additive.md -/

/-- R176, R177 with R175: for every signed exponent `n`, MULP10 gives `u * 10^n` and DIVP10 `u * 10^(-n)`, rounded once
and delivered: no exponent is limited. -/
def Obligations.PowersOfTenScaleByAnyExponent : Prop :=
  ∀ (rd rs1 rs2 : Reg) (rm : RoundingMode) (c : OverflowMode) (s : State) (u n : Int),
    u = (s.reg rs1).toInt → n = (s.reg rs2).toInt →
      RoundsOnce (.mulp10 rd rs1 rs2 rm c) rd ((u : ℝ) * (10 : ℝ) ^ n) rm c s
        ∧ RoundsOnce (.divp10 rd rs1 rs2 rm c) rd ((u : ℝ) * (10 : ℝ) ^ (-n)) rm c s

/-- R179, R180 with R178, at all scales 0 to 18: ADDS and SUBS give `a ± b * 10^(s - s2)`, the exact sum at scale `s`,
rounded once and delivered. -/
def Obligations.MixedScaleSumsRoundOnce : Prop :=
  ∀ (rd rs1 rs2 : Reg) (sc sc2 : Nat) (rm : RoundingMode) (c : OverflowMode) (s : State) (a b : Int),
    sc ≤ 18 → sc2 ≤ 18 → a = (s.reg rs1).toInt → b = (s.reg rs2).toInt →
      RoundsOnce (.adds rd rs1 rs2 sc sc2 rm c) rd ((a : ℝ) + b * (10 : ℝ) ^ ((sc : ℤ) - sc2)) rm c s
        ∧ RoundsOnce (.subs rd rs1 rs2 sc sc2 rm c) rd ((a : ℝ) - b * (10 : ℝ) ^ ((sc : ℤ) - sc2)) rm c s

/-- R181: for `s2 > s`, adding from the perspective of the discarded digits, with the mode inverted across zero, equals
R178, for a signed 64-bit `b` and for its mathematical negation. -/
def Obligations.AddingAcrossZeroIsTheSum : Prop :=
  ∀ (a b : Int) (sc sc2 : Nat) (rm : RoundingMode) (c : OverflowMode), sc < sc2 →
    addScaledAcross a b sc sc2 rm c = addScaled a b sc sc2 rm c

/-- R104, R150 (a), R151, R179 (a), R180, R90: commands that the spec says are the same operation end alike in every
state: DIV is DIVS.DOWN at scale 0, MULS at scale 0 is MUL in every mode, SQRS is MULS of a register by itself, ADDS and
SUBS at equal scales are ADD and SUB in every mode, RCLSW with a zero high word is RCLS2. -/
def Obligations.SameOperationsEndAlike : Prop :=
  ∀ (rd rs1 rs2 rs3 : Reg) (sc : Nat) (rm : RoundingMode) (c : OverflowMode) (s : State),
    EndAlike (.div rd rs1 rs2 c) (.divs rd rs1 rs2 0 .down c) s
      ∧ EndAlike (.mul rd rs1 rs2 c) (.muls rd rs1 rs2 0 rm c) s
      ∧ EndAlike (.sqrs rd rs1 sc rm c) (.muls rd rs1 rs1 sc rm c) s
      ∧ EndAlike (.add rd rs1 rs2 c) (.adds rd rs1 rs2 sc sc rm c) s
      ∧ EndAlike (.sub rd rs1 rs2 c) (.subs rd rs1 rs2 sc sc rm c) s
      ∧ (s.reg rs1 = 0 → EndAlike (.rclsw rd rs1 rs2 rs3) (.rcls2 rd rs2 rs3) s)
end

