-- ==== Sys2Proof/Laws/Decode.lean ====
section
/-!
SUPPORT. The fields of a word and the word of eight fields are each other's inverse (30_encoding.md R56).
-/

namespace Sys2Proof.Laws

/-- The fields of an assembled word are the fields it was assembled from. -/
@[simp] theorem fieldsOf_assemble (f : Fields) : fieldsOf (assemble f) = f := by
  obtain ⟨⟨op, hop⟩, ⟨rd, hrd⟩, ⟨rs1, hrs1⟩, ⟨rs2, hrs2⟩, ⟨t, ht⟩, ⟨s, hs⟩, ⟨rm, hrm⟩, ⟨c, hc⟩⟩ := f
  simp only [fieldsOf, assemble, Fin.ofNat, BitVec.toNat_ofNat, Fields.mk.injEq, Fin.mk.injEq]
  refine ⟨?_, ?_, ?_, ?_, ?_, ?_, ?_, ?_⟩ <;> omega

/-- Assembling the fields of a word gives the word back: no bit is dropped. -/
@[simp] theorem assemble_fieldsOf (w : CommandWord) : assemble (fieldsOf w) = w := by
  apply BitVec.eq_of_toNat_eq
  have := w.isLt
  simp only [fieldsOf, assemble, Fin.ofNat, BitVec.toNat_ofNat]
  omega

/-- The word of a command has the command's fields. -/
@[simp] theorem fieldsOf_encode (i : Instr) : fieldsOf (encode i) = encodeFields i := fieldsOf_assemble _

/-- A word decodes to `i` exactly when its opcode has a row, the row's checks pass, and the row builds `i`. -/
theorem decode_eq_ok_iff (w : CommandWord) (i : Instr) :
    decode w = .ok i ↔
      ∃ row, opcodeRow (fieldsOf w).op = some row ∧ rowCheck row (fieldsOf w) = none ∧ row.build (fieldsOf w) = i := by
  unfold decode
  cases opcodeRow (fieldsOf w).op with
  | none => simp
  | some row => cases h : rowCheck row (fieldsOf w) <;> simp [h]

end Sys2Proof.Laws
end

