-- ==== Sys2Proof/Laws/State.lean ====
section
/-!
SUPPORT. What each named update of the state leaves in each field: one lemma per field per update, and reading a register
after writing one.
-/

namespace Sys2Proof.Machine

@[simp] theorem setReg_regs (s : State) (r : Reg) (w : Word) : (s.setReg r w).regs = s.regs.set r w := rfl
@[simp] theorem setReg_flags (s : State) (r : Reg) (w : Word) : (s.setReg r w).flags = s.flags := rfl
@[simp] theorem setReg_cause (s : State) (r : Reg) (w : Word) : (s.setReg r w).cause = s.cause := rfl
@[simp] theorem setReg_ecmd (s : State) (r : Reg) (w : Word) : (s.setReg r w).ecmd = s.ecmd := rfl
@[simp] theorem setReg_pending (s : State) (r : Reg) (w : Word) : (s.setReg r w).pending = s.pending := rfl
@[simp] theorem setReg_reply (s : State) (r : Reg) (w : Word) : (s.setReg r w).reply = s.reply := rfl
@[simp] theorem setReg_resets (s : State) (r : Reg) (w : Word) : (s.setReg r w).resets = s.resets := rfl

@[simp] theorem complete_regs (s : State) (rd : Reg) (v : Word) : (s.complete rd v).regs = s.regs.set rd v := rfl
@[simp] theorem complete_flags (s : State) (rd : Reg) (v : Word) : (s.complete rd v).flags = s.flags := rfl
@[simp] theorem complete_cause (s : State) (rd : Reg) (v : Word) : (s.complete rd v).cause = s.cause := rfl
@[simp] theorem complete_ecmd (s : State) (rd : Reg) (v : Word) : (s.complete rd v).ecmd = s.ecmd := rfl
@[simp] theorem complete_pending (s : State) (rd : Reg) (v : Word) : (s.complete rd v).pending = s.pending := rfl
@[simp] theorem complete_reply (s : State) (rd : Reg) (v : Word) : (s.complete rd v).reply = .response 0 := rfl
@[simp] theorem complete_resets (s : State) (rd : Reg) (v : Word) : (s.complete rd v).resets = s.resets := rfl

@[simp] theorem raise_regs (s : State) (e : Exn) (w : CommandWord) : (s.raise e w).regs = s.regs := rfl
@[simp] theorem raise_flags (s : State) (e : Exn) (w : CommandWord) : (s.raise e w).flags = raiseFlag s.flags e := rfl
@[simp] theorem raise_cause (s : State) (e : Exn) (w : CommandWord) : (s.raise e w).cause = exnCode e := rfl
@[simp] theorem raise_ecmd (s : State) (e : Exn) (w : CommandWord) : (s.raise e w).ecmd = w := rfl
@[simp] theorem raise_pending (s : State) (e : Exn) (w : CommandWord) : (s.raise e w).pending = s.pending := rfl
@[simp] theorem raise_reply (s : State) (e : Exn) (w : CommandWord) : (s.raise e w).reply = .response (exnCode e) := rfl
@[simp] theorem raise_resets (s : State) (e : Exn) (w : CommandWord) : (s.raise e w).resets = s.resets := rfl

@[simp] theorem hostWrite_regs (s : State) (i : Reg) (w : Word) : (hostWrite i w s).regs = s.regs.set i w := rfl
@[simp] theorem hostWrite_flags (s : State) (i : Reg) (w : Word) : (hostWrite i w s).flags = s.flags := rfl
@[simp] theorem hostWrite_cause (s : State) (i : Reg) (w : Word) : (hostWrite i w s).cause = s.cause := rfl
@[simp] theorem hostWrite_ecmd (s : State) (i : Reg) (w : Word) : (hostWrite i w s).ecmd = s.ecmd := rfl
@[simp] theorem hostWrite_pending (s : State) (i : Reg) (w : Word) : (hostWrite i w s).pending = s.pending := rfl
@[simp] theorem hostWrite_reply (s : State) (i : Reg) (w : Word) : (hostWrite i w s).reply = .nothing := rfl
@[simp] theorem hostWrite_resets (s : State) (i : Reg) (w : Word) : (hostWrite i w s).resets = s.resets := rfl

@[simp] theorem hostRead_regs (s : State) (i : Reg) : (hostRead i s).regs = s.regs := rfl
@[simp] theorem hostRead_flags (s : State) (i : Reg) : (hostRead i s).flags = s.flags := rfl
@[simp] theorem hostRead_cause (s : State) (i : Reg) : (hostRead i s).cause = s.cause := rfl
@[simp] theorem hostRead_ecmd (s : State) (i : Reg) : (hostRead i s).ecmd = s.ecmd := rfl
@[simp] theorem hostRead_pending (s : State) (i : Reg) : (hostRead i s).pending = s.pending := rfl
@[simp] theorem hostRead_reply (s : State) (i : Reg) : (hostRead i s).reply = .value (s.reg i) := rfl
@[simp] theorem hostRead_resets (s : State) (i : Reg) : (hostRead i s).resets = s.resets := rfl

@[simp] theorem hostReadStatus_regs (s : State) (k : Fin 4) : (hostReadStatus k s).regs = s.regs := rfl
@[simp] theorem hostReadStatus_flags (s : State) (k : Fin 4) : (hostReadStatus k s).flags = s.flags := rfl
@[simp] theorem hostReadStatus_cause (s : State) (k : Fin 4) : (hostReadStatus k s).cause = s.cause := rfl
@[simp] theorem hostReadStatus_ecmd (s : State) (k : Fin 4) : (hostReadStatus k s).ecmd = s.ecmd := rfl
@[simp] theorem hostReadStatus_pending (s : State) (k : Fin 4) : (hostReadStatus k s).pending = s.pending := rfl
@[simp] theorem hostReadStatus_reply (s : State) (k : Fin 4) : (hostReadStatus k s).reply = .value (s.status k) := rfl
@[simp] theorem hostReadStatus_resets (s : State) (k : Fin 4) : (hostReadStatus k s).resets = s.resets := rfl

@[simp] theorem hostClearFlags_regs (s : State) (m : Word) : (hostClearFlags m s).regs = s.regs := rfl
@[simp] theorem hostClearFlags_flags (s : State) (m : Word) : (hostClearFlags m s).flags = clearFlags s.flags m := rfl
@[simp] theorem hostClearFlags_cause (s : State) (m : Word) : (hostClearFlags m s).cause = s.cause := rfl
@[simp] theorem hostClearFlags_ecmd (s : State) (m : Word) : (hostClearFlags m s).ecmd = s.ecmd := rfl
@[simp] theorem hostClearFlags_pending (s : State) (m : Word) : (hostClearFlags m s).pending = s.pending := rfl
@[simp] theorem hostClearFlags_reply (s : State) (m : Word) : (hostClearFlags m s).reply = .nothing := rfl
@[simp] theorem hostClearFlags_resets (s : State) (m : Word) : (hostClearFlags m s).resets = s.resets := rfl

@[simp] theorem hostReset_regs (s : State) : (hostReset s).regs = Vector.ofFn (Config.resetGpr (s.resets + 1)) := rfl
@[simp] theorem hostReset_flags (s : State) : (hostReset s).flags = 0 := rfl
@[simp] theorem hostReset_cause (s : State) : (hostReset s).cause = 0 := rfl
@[simp] theorem hostReset_ecmd (s : State) : (hostReset s).ecmd = 0 := rfl
@[simp] theorem hostReset_pending (s : State) : (hostReset s).pending = s.pending := rfl
@[simp] theorem hostReset_reply (s : State) : (hostReset s).reply = .nothing := rfl
@[simp] theorem hostReset_resets (s : State) : (hostReset s).resets = s.resets + 1 := rfl

@[simp] theorem afterReset_regs (n : Nat) (ops : List HostOp) : (State.afterReset n ops).regs = Vector.ofFn (Config.resetGpr n) := rfl
@[simp] theorem afterReset_flags (n : Nat) (ops : List HostOp) : (State.afterReset n ops).flags = 0 := rfl
@[simp] theorem afterReset_cause (n : Nat) (ops : List HostOp) : (State.afterReset n ops).cause = 0 := rfl
@[simp] theorem afterReset_ecmd (n : Nat) (ops : List HostOp) : (State.afterReset n ops).ecmd = 0 := rfl
@[simp] theorem afterReset_pending (n : Nat) (ops : List HostOp) : (State.afterReset n ops).pending = ops := rfl
@[simp] theorem afterReset_reply (n : Nat) (ops : List HostOp) : (State.afterReset n ops).reply = .nothing := rfl
@[simp] theorem afterReset_resets (n : Nat) (ops : List HostOp) : (State.afterReset n ops).resets = n := rfl

@[simp] theorem issue_regs (s : State) (ops : List HostOp) : (s.issue ops).regs = s.regs := rfl
@[simp] theorem issue_flags (s : State) (ops : List HostOp) : (s.issue ops).flags = s.flags := rfl
@[simp] theorem issue_cause (s : State) (ops : List HostOp) : (s.issue ops).cause = s.cause := rfl
@[simp] theorem issue_ecmd (s : State) (ops : List HostOp) : (s.issue ops).ecmd = s.ecmd := rfl
@[simp] theorem issue_pending (s : State) (ops : List HostOp) : (s.issue ops).pending = s.pending ++ ops := rfl
@[simp] theorem issue_reply (s : State) (ops : List HostOp) : (s.issue ops).reply = s.reply := rfl
@[simp] theorem issue_resets (s : State) (ops : List HostOp) : (s.issue ops).resets = s.resets := rfl

@[simp] theorem withFetchWord_regs (s : State) (nbits w : Nat) : (s.withFetchWord nbits w).regs = s.regs := rfl
@[simp] theorem withFetchWord_flags (s : State) (nbits w : Nat) : (s.withFetchWord nbits w).flags = s.flags := rfl
@[simp] theorem withFetchWord_cause (s : State) (nbits w : Nat) : (s.withFetchWord nbits w).cause = s.cause := rfl
@[simp] theorem withFetchWord_ecmd (s : State) (nbits w : Nat) : (s.withFetchWord nbits w).ecmd = s.ecmd := rfl
@[simp] theorem withFetchWord_pending (s : State) (nbits w : Nat) : (s.withFetchWord nbits w).pending = .cmd (BitVec.ofNat 32 (w % 2 ^ nbits)) :: s.pending := rfl
@[simp] theorem withFetchWord_reply (s : State) (nbits w : Nat) : (s.withFetchWord nbits w).reply = s.reply := rfl
@[simp] theorem withFetchWord_resets (s : State) (nbits w : Nat) : (s.withFetchWord nbits w).resets = s.resets := rfl

@[simp] theorem reset_flags : State.reset.flags = 0 := rfl
@[simp] theorem reset_cause : State.reset.cause = 0 := rfl
@[simp] theorem reset_ecmd : State.reset.ecmd = 0 := rfl
@[simp] theorem reset_pending : State.reset.pending = [] := rfl

/-- Reading a register is reading the register file at its number. -/
theorem reg_eq (s : State) (r : Reg) : s.reg r = s.regs[r] := rfl

/-- Reading after a write: the word at the register written, and every other register as before. -/
theorem getElem_set (regs : Vector Word 16) (r q : Reg) (w : Word) :
    (regs.set r w)[q] = if r = q then w else regs[q] := by
  simp [Vector.getElem_set, Fin.ext_iff]

@[simp] theorem setReg_reg (s : State) (r q : Reg) (w : Word) :
    (s.setReg r w).reg q = if r = q then w else s.reg q := by
  simp only [reg_eq, setReg_regs, getElem_set]

@[simp] theorem complete_reg (s : State) (rd q : Reg) (v : Word) :
    (s.complete rd v).reg q = if rd = q then v else s.reg q := by
  simp only [reg_eq, complete_regs, getElem_set]

@[simp] theorem raise_reg (s : State) (e : Exn) (w : CommandWord) (q : Reg) : (s.raise e w).reg q = s.reg q := rfl

@[simp] theorem hostWrite_reg (s : State) (i q : Reg) (w : Word) :
    (hostWrite i w s).reg q = if i = q then w else s.reg q := by
  simp only [reg_eq, hostWrite_regs, getElem_set]

@[simp] theorem hostRead_reg (s : State) (i q : Reg) : (hostRead i s).reg q = s.reg q := rfl
@[simp] theorem hostReadStatus_reg (s : State) (k : Fin 4) (q : Reg) : (hostReadStatus k s).reg q = s.reg q := rfl
@[simp] theorem hostClearFlags_reg (s : State) (m : Word) (q : Reg) : (hostClearFlags m s).reg q = s.reg q := rfl

end Sys2Proof.Machine
end

