-- ==== Sys2Proof/Laws/Ops.lean ====
section
/-!
SUPPORT. What each shared operation over the state can do, said once: how a command ends, taking an exception, the host
operations, the step.
-/

namespace Sys2Proof.Laws

open Sys2Proof.Machine

/-! ### Exception codes -/

theorem exnCode_ne_zero (e : Exn) : exnCode e ≠ 0#3 := by cases e <;> decide

theorem exnOfCode_exnCode (e : Exn) : exnOfCode (exnCode e) = some e := by cases e <;> rfl

theorem exnCode_injective (e f : Exn) (h : exnCode e = exnCode f) : e = f := by
  revert h; cases e <;> cases f <;> decide

/-- A code that names an exception is the code of that exception. -/
theorem exnCode_of_exnOfCode (k : BitVec 3) (e : Exn) (h : exnOfCode k = some e) : exnCode e = k := by
  revert h; revert e; revert k; decide

/-- The bit of code `k` is bit `k - 1`. -/
theorem flagBit_eq (e : Exn) : flagBit e = 1#5 <<< ((exnCode e).toNat - 1) := rfl

/-! ### How a command ends -/

/-- Every command ends by concluding with some result for its destination and its own word: it answers a next state, and
never a fault or a refusal. -/
theorem exec_ends (i : Instr) (s : State) :
    ∃ result, exec i s = .next (s.conclude (encode i) (destOf i) result) := by
  cases i <;> exact ⟨_, rfl⟩

@[simp] theorem conclude_ok (s : State) (w : CommandWord) (rd : Reg) (v : Word) :
    s.conclude w rd (.ok v) = s.complete rd v := rfl

@[simp] theorem conclude_error (s : State) (w : CommandWord) (rd : Reg) (e : Exn) :
    s.conclude w rd (.error e) = s.raise e w := rfl

/-- A command that ends with a value completes with it. -/
theorem completesWith_of (i : Instr) (rd : Reg) (v : Word) (s : State)
    (h : exec i s = .next (s.conclude (encode i) rd (.ok v))) : CompletesWith i rd v s := h

/-- A command that ends with an exception raises its code and sets its flag. -/
theorem raisesCode_of (i : Instr) (rd : Reg) (e : Exn) (s : State)
    (h : exec i s = .next (s.conclude (encode i) rd (.error e))) : RaisesCode i (exnCode e) (flagBit e) s := h

/-- The response says how the command ended: 0 exactly when it has a value. -/
theorem conclude_reply (s : State) (w : CommandWord) (rd : Reg) (result : Except Exn Word) :
    (s.conclude w rd result).reply = .response 0 ↔ ∃ v, result = .ok v := by
  cases result with
  | ok v => simp
  | error e => simp [exnCode_ne_zero]

/-- The response is an exception's code exactly when the command raised it. -/
theorem conclude_reply_code (s : State) (w : CommandWord) (rd : Reg) (result : Except Exn Word) (e : Exn) :
    (s.conclude w rd result).reply = .response (exnCode e) ↔ result = .error e := by
  cases result with
  | ok v => simp [(exnCode_ne_zero e).symm]
  | error f =>
    simp only [conclude_error, State.raise, Reply.response.injEq, Except.error.injEq]
    exact ⟨exnCode_injective f e, fun h => h ▸ rfl⟩

/-! ### Host operations and the step -/

/-- CMD on a legal word performs the command. -/
theorem issueCommand_of_ok (w : CommandWord) (i : Instr) (s : State) (h : decode w = .ok i) :
    issueCommand w s = exec i s := by simp [issueCommand, h]

/-- CMD on an illegal word raises ILLEGAL_COMMAND. -/
theorem issueCommand_of_error (w : CommandWord) (e : IllegalWord) (s : State) (h : decode w = .error e) :
    issueCommand w s = .next (s.raise .illegalCommand w) := by simp [issueCommand, h]

/-- Every host operation answers a next state. -/
theorem perform_next (op : HostOp) (s : State) : ∃ t, perform op s = .next t := by
  cases op with
  | cmd w =>
    cases h : decode w with
    | ok i =>
      obtain ⟨result, hr⟩ := exec_ends i s
      exact ⟨_, (issueCommand_of_ok w i s h).trans hr⟩
    | error e => exact ⟨_, issueCommand_of_error w e s h⟩
  | wr i w => exact ⟨_, rfl⟩
  | rd i => exact ⟨_, rfl⟩
  | rds k => exact ⟨_, rfl⟩
  | clrf m => exact ⟨_, rfl⟩
  | reset => exact ⟨_, rfl⟩

/-- With nothing pending the step leaves the state. -/
theorem step_idle (s : State) (h : s.pending = []) : step s = .next s := by simp [step, State.takeOp, h]

/-- Otherwise it performs the first pending operation, with that operation taken off. -/
theorem step_perform (s : State) (op : HostOp) (rest : List HostOp) (h : s.pending = op :: rest) :
    step s = perform op { s with pending := rest } := by simp [step, State.takeOp, h]

end Sys2Proof.Laws
end

