-- ==== Sys2Proof/Laws/PerInstr.lean ====
section
/-!
SUPPORT. Statements made per instruction: the encoder's fields are a legal row of the opcode map and spell the command.
-/

namespace Sys2Proof.Laws

/-- The fields the encoder writes for a well-formed command have an assigned opcode, pass every check of R65, and build
the command back. -/
def EncodedFieldsLegal.Statement (i : Instr) : Prop :=
  i.wf = true →
    ∃ row, opcodeRow (encodeFields i).op = some row ∧ rowCheck row (encodeFields i) = none
      ∧ row.build (encodeFields i) = i

@[simp] theorem mode_ofCode_code (rm : RoundingMode) : RoundingMode.ofCode rm.code = rm := by cases rm <;> rfl

@[simp] theorem overflow_ofCode_code (c : OverflowMode) : OverflowMode.ofCode c.code = c := by cases c <;> rfl

@[simp] theorem mode_code_ofCode (k : Fin 8) : (RoundingMode.ofCode k).code = k := by revert k; decide

@[simp] theorem overflow_code_ofCode (k : Fin 2) : (OverflowMode.ofCode k).code = k := by revert k; decide

/-- A third source register comes back from its field. -/
@[simp] theorem rs3_tOfReg (op : Fin 64) (rd rs1 rs2 r : Fin 16) (s : Fin 32) (rm : Fin 8) (c : Fin 2) :
    Fields.rs3 ⟨op, rd, rs1, rs2, tOfReg r, s, rm, c⟩ = r := by
  have : ∀ r : Reg, Fin.ofNat 16 (tOfReg r).val = r := by decide
  exact this r

theorem tOfReg_not_lt (r : Reg) : ¬15 < (tOfReg r).val := by revert r; decide

/-- A legal scale comes back from its field. -/
theorem scaleField_val (sc : Nat) (h : scaleOk sc = true) : (scaleField sc).val = sc := by
  have : sc ≤ 18 := by simpa [scaleOk] using h
  simp only [scaleField, Fin.val_ofNat]
  omega

theorem scaleOk_not_lt (sc : Nat) (h : scaleOk sc = true) : ¬18 < sc := by
  simpa [scaleOk] using h

theorem EncodedFieldsLegal.add (rd rs1 rs2 : Reg) (c : OverflowMode) :
    Statement (.add rd rs1 rs2 c) := by
  intro _
  refine ⟨_, rfl, ?_, ?_⟩ <;>
    simp [encodeFields, rowCheck, formatCheck, Fields.chk]

theorem EncodedFieldsLegal.sub (rd rs1 rs2 : Reg) (c : OverflowMode) :
    Statement (.sub rd rs1 rs2 c) := by
  intro _
  refine ⟨_, rfl, ?_, ?_⟩ <;>
    simp [encodeFields, rowCheck, formatCheck, Fields.chk]

theorem EncodedFieldsLegal.mul (rd rs1 rs2 : Reg) (c : OverflowMode) :
    Statement (.mul rd rs1 rs2 c) := by
  intro _
  refine ⟨_, rfl, ?_, ?_⟩ <;>
    simp [encodeFields, rowCheck, formatCheck, Fields.chk]

theorem EncodedFieldsLegal.div (rd rs1 rs2 : Reg) (c : OverflowMode) :
    Statement (.div rd rs1 rs2 c) := by
  intro _
  refine ⟨_, rfl, ?_, ?_⟩ <;>
    simp [encodeFields, rowCheck, formatCheck, Fields.chk]

theorem EncodedFieldsLegal.abs (rd rs1 : Reg) (c : OverflowMode) :
    Statement (.abs rd rs1 c) := by
  intro _
  refine ⟨_, rfl, ?_, ?_⟩ <;>
    simp [encodeFields, rowCheck, formatCheck, Fields.chk]

theorem EncodedFieldsLegal.neg (rd rs1 : Reg) (c : OverflowMode) :
    Statement (.neg rd rs1 c) := by
  intro _
  refine ⟨_, rfl, ?_, ?_⟩ <;>
    simp [encodeFields, rowCheck, formatCheck, Fields.chk]

theorem EncodedFieldsLegal.ucmp (rd rs1 rs2 : Reg) :
    Statement (.ucmp rd rs1 rs2) := by
  intro _
  refine ⟨_, rfl, ?_, ?_⟩ <;>
    simp [encodeFields, rowCheck, formatCheck]

theorem EncodedFieldsLegal.ult (rd rs1 rs2 : Reg) :
    Statement (.ult rd rs1 rs2) := by
  intro _
  refine ⟨_, rfl, ?_, ?_⟩ <;>
    simp [encodeFields, rowCheck, formatCheck]

theorem EncodedFieldsLegal.ugt (rd rs1 rs2 : Reg) :
    Statement (.ugt rd rs1 rs2) := by
  intro _
  refine ⟨_, rfl, ?_, ?_⟩ <;>
    simp [encodeFields, rowCheck, formatCheck]

theorem EncodedFieldsLegal.ule (rd rs1 rs2 : Reg) :
    Statement (.ule rd rs1 rs2) := by
  intro _
  refine ⟨_, rfl, ?_, ?_⟩ <;>
    simp [encodeFields, rowCheck, formatCheck]

theorem EncodedFieldsLegal.udiv (rd rs1 rs2 : Reg) :
    Statement (.udiv rd rs1 rs2) := by
  intro _
  refine ⟨_, rfl, ?_, ?_⟩ <;>
    simp [encodeFields, rowCheck, formatCheck]

theorem EncodedFieldsLegal.mullo (rd rs1 rs2 : Reg) :
    Statement (.mullo rd rs1 rs2) := by
  intro _
  refine ⟨_, rfl, ?_, ?_⟩ <;>
    simp [encodeFields, rowCheck, formatCheck]

theorem EncodedFieldsLegal.mulhiu (rd rs1 rs2 : Reg) :
    Statement (.mulhiu rd rs1 rs2) := by
  intro _
  refine ⟨_, rfl, ?_, ?_⟩ <;>
    simp [encodeFields, rowCheck, formatCheck]

theorem EncodedFieldsLegal.mulhis (rd rs1 rs2 : Reg) :
    Statement (.mulhis rd rs1 rs2) := by
  intro _
  refine ⟨_, rfl, ?_, ?_⟩ <;>
    simp [encodeFields, rowCheck, formatCheck]

theorem EncodedFieldsLegal.divwq (rd rs1 rs2 rs3 : Reg) (c : OverflowMode) :
    Statement (.divwq rd rs1 rs2 rs3 c) := by
  intro _
  refine ⟨_, rfl, ?_, ?_⟩ <;>
    simp [encodeFields, rowCheck, formatCheck, Fields.chk, tOfReg_not_lt rs3]

theorem EncodedFieldsLegal.divwr (rd rs1 rs2 rs3 : Reg) :
    Statement (.divwr rd rs1 rs2 rs3) := by
  intro _
  refine ⟨_, rfl, ?_, ?_⟩ <;>
    simp [encodeFields, rowCheck, formatCheck, tOfReg_not_lt rs3]

theorem EncodedFieldsLegal.ldsf (rd : Reg) (sc : Nat) :
    Statement (.ldsf rd sc) := by
  intro hsc
  replace hsc : scaleOk sc = true := hsc
  refine ⟨_, rfl, ?_, ?_⟩ <;>
    simp [encodeFields, rowCheck, formatCheck, scaleField_val sc hsc, scaleOk_not_lt sc hsc]

theorem EncodedFieldsLegal.rinc (rd rs1 rs2 rs3 : Reg) (rm : RoundingMode) :
    Statement (.rinc rd rs1 rs2 rs3 rm) := by
  intro _
  refine ⟨_, rfl, ?_, ?_⟩ <;>
    simp [encodeFields, rowCheck, formatCheck, Fields.mode, tOfReg_not_lt rs3]

theorem EncodedFieldsLegal.rcls (rd rs1 rs2 : Reg) :
    Statement (.rcls rd rs1 rs2) := by
  intro _
  refine ⟨_, rfl, ?_, ?_⟩ <;>
    simp [encodeFields, rowCheck, formatCheck]

theorem EncodedFieldsLegal.rcls2 (rd rs1 rs2 : Reg) :
    Statement (.rcls2 rd rs1 rs2) := by
  intro _
  refine ⟨_, rfl, ?_, ?_⟩ <;>
    simp [encodeFields, rowCheck, formatCheck]

theorem EncodedFieldsLegal.rclsw (rd rs1 rs2 rs3 : Reg) :
    Statement (.rclsw rd rs1 rs2 rs3) := by
  intro _
  refine ⟨_, rfl, ?_, ?_⟩ <;>
    simp [encodeFields, rowCheck, formatCheck, tOfReg_not_lt rs3]

theorem EncodedFieldsLegal.rminv (rd : Reg) (rm : RoundingMode) :
    Statement (.rminv rd rm) := by
  intro _
  refine ⟨_, rfl, ?_, ?_⟩ <;>
    simp [encodeFields, rowCheck, formatCheck, Fields.mode]

theorem EncodedFieldsLegal.divs (rd rs1 rs2 : Reg) (sc : Nat) (rm : RoundingMode) (c : OverflowMode) :
    Statement (.divs rd rs1 rs2 sc rm c) := by
  intro hsc
  replace hsc : scaleOk sc = true := hsc
  refine ⟨_, rfl, ?_, ?_⟩ <;>
    simp [encodeFields, rowCheck, formatCheck, Fields.chk, Fields.mode, scaleField_val sc hsc, scaleOk_not_lt sc hsc]

theorem EncodedFieldsLegal.muls (rd rs1 rs2 : Reg) (sc : Nat) (rm : RoundingMode) (c : OverflowMode) :
    Statement (.muls rd rs1 rs2 sc rm c) := by
  intro hsc
  replace hsc : scaleOk sc = true := hsc
  refine ⟨_, rfl, ?_, ?_⟩ <;>
    simp [encodeFields, rowCheck, formatCheck, Fields.chk, Fields.mode, scaleField_val sc hsc, scaleOk_not_lt sc hsc]

theorem EncodedFieldsLegal.sqrs (rd rs1 : Reg) (sc : Nat) (rm : RoundingMode) (c : OverflowMode) :
    Statement (.sqrs rd rs1 sc rm c) := by
  intro hsc
  replace hsc : scaleOk sc = true := hsc
  refine ⟨_, rfl, ?_, ?_⟩ <;>
    simp [encodeFields, rowCheck, formatCheck, Fields.chk, Fields.mode, scaleField_val sc hsc, scaleOk_not_lt sc hsc]

theorem EncodedFieldsLegal.sqrts (rd rs1 : Reg) (sc : Nat) (rm : RoundingMode) :
    Statement (.sqrts rd rs1 sc rm) := by
  intro hsc
  replace hsc : scaleOk sc = true := hsc
  refine ⟨_, rfl, ?_, ?_⟩ <;>
    simp [encodeFields, rowCheck, formatCheck, Fields.mode, scaleField_val sc hsc, scaleOk_not_lt sc hsc]

theorem EncodedFieldsLegal.shl (rd rs1 rs2 : Reg) (rm : RoundingMode) (c : OverflowMode) :
    Statement (.shl rd rs1 rs2 rm c) := by
  intro _
  refine ⟨_, rfl, ?_, ?_⟩ <;>
    simp [encodeFields, rowCheck, formatCheck, Fields.chk, Fields.mode]

theorem EncodedFieldsLegal.shr (rd rs1 rs2 : Reg) (rm : RoundingMode) (c : OverflowMode) :
    Statement (.shr rd rs1 rs2 rm c) := by
  intro _
  refine ⟨_, rfl, ?_, ?_⟩ <;>
    simp [encodeFields, rowCheck, formatCheck, Fields.chk, Fields.mode]

theorem EncodedFieldsLegal.mulp10 (rd rs1 rs2 : Reg) (rm : RoundingMode) (c : OverflowMode) :
    Statement (.mulp10 rd rs1 rs2 rm c) := by
  intro _
  refine ⟨_, rfl, ?_, ?_⟩ <;>
    simp [encodeFields, rowCheck, formatCheck, Fields.chk, Fields.mode]

theorem EncodedFieldsLegal.divp10 (rd rs1 rs2 : Reg) (rm : RoundingMode) (c : OverflowMode) :
    Statement (.divp10 rd rs1 rs2 rm c) := by
  intro _
  refine ⟨_, rfl, ?_, ?_⟩ <;>
    simp [encodeFields, rowCheck, formatCheck, Fields.chk, Fields.mode]

theorem EncodedFieldsLegal.adds (rd rs1 rs2 : Reg) (sc sc2 : Nat) (rm : RoundingMode) (c : OverflowMode) :
    Statement (.adds rd rs1 rs2 sc sc2 rm c) := by
  intro h
  obtain ⟨hsc, hsc2⟩ : scaleOk sc = true ∧ scaleOk sc2 = true := by simpa [Instr.wf] using h
  refine ⟨_, rfl, ?_, ?_⟩ <;>
    simp [encodeFields, rowCheck, formatCheck, Fields.chk, Fields.mode, scaleField_val sc hsc, scaleOk_not_lt sc hsc, scaleField_val sc2 hsc2, scaleOk_not_lt sc2 hsc2]

theorem EncodedFieldsLegal.subs (rd rs1 rs2 : Reg) (sc sc2 : Nat) (rm : RoundingMode) (c : OverflowMode) :
    Statement (.subs rd rs1 rs2 sc sc2 rm c) := by
  intro h
  obtain ⟨hsc, hsc2⟩ : scaleOk sc = true ∧ scaleOk sc2 = true := by simpa [Instr.wf] using h
  refine ⟨_, rfl, ?_, ?_⟩ <;>
    simp [encodeFields, rowCheck, formatCheck, Fields.chk, Fields.mode, scaleField_val sc hsc, scaleOk_not_lt sc hsc, scaleField_val sc2 hsc2, scaleOk_not_lt sc2 hsc2]

end Sys2Proof.Laws
end

