-- ==== Sys2Proof/Laws/Rounding.lean ====
section
/-!
SUPPORT. What Classify, Increment and Deliver can do, said once (40_rounding.md R82, R83, R85).
-/

namespace Sys2Proof.Laws

open Sys2Proof.Machine

/-! ### Operand readings -/

/-- Reading a pattern as signed and wrapping gives the pattern back. -/
@[simp] theorem wrap64_signedOf (w : Word) : wrap64 (signedOf w) = w := BitVec.ofInt_toInt

/-- A signed reading lies in the 64-bit range. -/
theorem inRange_signedOf (w : Word) : inRange (signedOf w) = true := by
  have h₁ := BitVec.le_toInt w
  have h₂ := BitVec.toInt_lt (x := w)
  simp only [inRange, signedOf, minValue, maxValue]
  exact decide_eq_true ⟨by omega, by omega⟩

/-- `inRange` spelled out. -/
theorem inRange_iff (v : Int) : inRange v = true ↔ minValue ≤ v ∧ v ≤ maxValue := by simp [inRange]

/-! ### Classify -/

theorem classify_eq_zero_iff (r d : Nat) : classify r d = .zero ↔ r = 0 := by
  unfold classify; split_ifs <;> simp_all

theorem classify_eq_less_iff (r d : Nat) : classify r d = .lessThanHalfNonzero ↔ r ≠ 0 ∧ 2 * r < d := by
  unfold classify; split_ifs <;> simp_all

theorem classify_eq_half_iff (r d : Nat) : classify r d = .equalToHalf ↔ r ≠ 0 ∧ 2 * r = d := by
  unfold classify; split_ifs <;> first | simp_all; done | (simp_all; omega)

theorem classify_eq_greater_iff (r d : Nat) : classify r d = .greaterThanHalf ↔ r ≠ 0 ∧ d < 2 * r := by
  unfold classify; split_ifs <;> simp_all <;> omega

/-! ### Increment -/

@[simp] theorem increment_zero (rm : RoundingMode) (sign : Sign) (t : Int) : increment rm sign t .zero = .ok 0 := by
  cases rm <;> rfl

/-- An increment is 0 or the sign's unit. -/
theorem increment_eq_or (rm : RoundingMode) (sign : Sign) (t : Int) (part : TruncatedPart) (k : Int)
    (h : increment rm sign t part = .ok k) : k = 0 ∨ k = signValue sign := by
  revert h
  cases rm <;> cases part <;> cases sign <;> simp only [increment, signValue, Except.ok.injEq, reduceCtorEq] <;>
    first | omega | simp

/-- The increment raises exactly under UNNECESSARY on a part that is not zero. -/
theorem increment_error_iff (rm : RoundingMode) (sign : Sign) (t : Int) (part : TruncatedPart) (e : Exn) :
    increment rm sign t part = .error e ↔ e = .roundingNecessary ∧ rm = .unnecessary ∧ part ≠ .zero := by
  cases rm <;> cases part <;> simp [increment, eq_comm]

/-- Adding the increment raises exactly where the increment does. -/
theorem addIncrement_error_iff (rm : RoundingMode) (sign : Sign) (t : Int) (part : TruncatedPart) (e : Exn) :
    addIncrement rm sign t part = .error e ↔ e = .roundingNecessary ∧ rm = .unnecessary ∧ part ≠ .zero := by
  rw [← increment_error_iff rm sign t part e]
  unfold addIncrement
  cases increment rm sign t part <;> simp

/-! ### Deliver -/

/-- A value in range is delivered as it is. -/
theorem deliver_of_inRange (v : Int) (c : OverflowMode) (h : inRange v = true) : deliver v c = .ok (wrap64 v) := by
  simp [deliver, h]

/-- Unchecked delivery always wraps. -/
@[simp] theorem deliver_unchecked (v : Int) : deliver v .unchecked = .ok (wrap64 v) := by
  unfold deliver; split <;> rfl

/-- A register's own value is delivered unchanged. -/
@[simp] theorem deliver_signedOf (w : Word) (c : OverflowMode) : deliver (signedOf w) c = .ok w := by
  rw [deliver_of_inRange _ _ (inRange_signedOf w), wrap64_signedOf]

/-- Delivery raises OVERFLOW exactly under CHECKED on a value out of range, and raises nothing else. -/
theorem deliver_error_iff (v : Int) (c : OverflowMode) (e : Exn) :
    deliver v c = .error e ↔ e = .overflow ∧ c = .checked ∧ inRange v = false := by
  unfold deliver
  cases hv : inRange v <;> cases c <;> simp [eq_comm]

/-- What a delivery that completes writes. -/
theorem deliver_ok_iff (v : Int) (c : OverflowMode) (w : Word) :
    deliver v c = .ok w ↔ w = wrap64 v ∧ (c = .unchecked ∨ inRange v = true) := by
  unfold deliver
  cases hv : inRange v <;> cases c <;> simp [eq_comm]

@[simp] theorem deliverRounded_ok (v : Int) (c : OverflowMode) : deliverRounded (.ok v) c = deliver v c := rfl

@[simp] theorem deliverRounded_error (e : Exn) (c : OverflowMode) : deliverRounded (.error e) c = .error e := rfl

/-! ### Limits -/

theorem clamp_of_mem (lo hi n : Int) (h₁ : lo ≤ n) (h₂ : n ≤ hi) : clamp lo hi n = n := by
  unfold clamp; omega

theorem clamp_of_lt (lo hi n : Int) (h : n < lo) : clamp lo hi n = lo := by
  unfold clamp; omega

theorem clamp_of_gt (lo hi n : Int) (hh : lo ≤ hi) (h : hi < n) : clamp lo hi n = hi := by
  unfold clamp; omega

end Sys2Proof.Laws
end

