-- ==== Sys2Proof/Tests/Slice0.lean ====
section
/-!
SUPPORT. Tests and witnesses. Expected values and words are those of 95_test_vectors.md (sections 1 to 5) and of the rules
cited, never the model's own answers. In a command test the sources are r1, r2, r3 and the destination is r4.
-/

namespace Sys2Proof.Tests

open Sys2Proof Sys2Proof.Machine

/-- A small state: r1, r2, r3 as given, r4 = 77, every other general register 0, no exception yet. -/
def small (a b c : Int) : State :=
  { State.afterReset 0 [] with
    regs := ((((Vector.replicate 16 0).set 1 (wrap64 a)).set 2 (wrap64 b)).set 3 (wrap64 c)).set 4 77 }

/-- The same state with host operations to perform. -/
def waiting (a b c : Int) (ops : List HostOp) : State := { small a b c with pending := ops }

/-- What one step leaves in r4, signed, and answers. -/
def stepR4 (s : State) : Option (Int × Reply) :=
  match step s with
  | .next t => some ((t.reg 4).toInt, t.reply)
  | _ => none

/-- What one step leaves in FLAGS, CAUSE and ECMD. -/
def stepStatus (s : State) : Option (BitVec 5 × BitVec 3 × BitVec 32) :=
  match step s with
  | .next t => some (t.flags, t.cause, t.ecmd)
  | _ => none

/-- Command word `w` on operands `a`, `b`, `c` writes `v` to r4 and answers 0. -/
abbrev Gives (w : CommandWord) (a b c v : Int) : Prop :=
  stepR4 (waiting a b c [.cmd w]) = some ((wrap64 v).toInt, .response 0)

/-- It raises the exception of code `k`: r4 keeps 77, the response and CAUSE are `k`, FLAGS is `bit`, ECMD is `w`. -/
abbrev Raises (w : CommandWord) (a b c : Int) (k : BitVec 3) (bit : BitVec 5) : Prop :=
  stepR4 (waiting a b c [.cmd w]) = some (77, .response k)
    ∧ stepStatus (waiting a b c [.cmd w]) = some (bit, k, w)

/-! ### Decoding: one word written out per command, with its assembler text (95 section 2.1) -/

theorem test_decode_add : decode 0x06930001#32 = .ok (.add 10 4 12 .checked) ∧ encode (.add 10 4 12 .checked) = 0x06930001#32 := by decide

theorem test_decode_sub : decode 0x08584000#32 = .ok (.sub 1 6 1 .unchecked) ∧ encode (.sub 1 6 1 .unchecked) = 0x08584000#32 := by decide

theorem test_decode_mul : decode 0x0DCB4000#32 = .ok (.mul 7 2 13 .unchecked) ∧ encode (.mul 7 2 13 .unchecked) = 0x0DCB4000#32 := by decide

theorem test_decode_div : decode 0x10704001#32 = .ok (.div 1 12 1 .checked) ∧ encode (.div 1 12 1 .checked) = 0x10704001#32 := by decide

theorem test_decode_abs : decode 0x17500000#32 = .ok (.abs 13 4 .unchecked) ∧ encode (.abs 13 4 .unchecked) = 0x17500000#32 := by decide

theorem test_decode_neg : decode 0x19AC0000#32 = .ok (.neg 6 11 .unchecked) ∧ encode (.neg 6 11 .unchecked) = 0x19AC0000#32 := by decide

theorem test_decode_ucmp : decode 0x23F68000#32 = .ok (.ucmp 15 13 10) ∧ encode (.ucmp 15 13 10) = 0x23F68000#32 := by decide

theorem test_decode_ult : decode 0x265D4000#32 = .ok (.ult 9 7 5) ∧ encode (.ult 9 7 5) = 0x265D4000#32 := by decide

theorem test_decode_ugt : decode 0x2ABA4000#32 = .ok (.ugt 10 14 9) ∧ encode (.ugt 10 14 9) = 0x2ABA4000#32 := by decide

theorem test_decode_ule : decode 0x2E93C000#32 = .ok (.ule 10 4 15) ∧ encode (.ule 10 4 15) = 0x2E93C000#32 := by decide

theorem test_decode_udiv : decode 0x32AFC000#32 = .ok (.udiv 10 11 15) ∧ encode (.udiv 10 11 15) = 0x32AFC000#32 := by decide

theorem test_decode_mullo : decode 0x43C84000#32 = .ok (.mullo 15 2 1) ∧ encode (.mullo 15 2 1) = 0x43C84000#32 := by decide

theorem test_decode_mulhiu : decode 0x472C0000#32 = .ok (.mulhiu 12 11 0) ∧ encode (.mulhiu 12 11 0) = 0x472C0000#32 := by decide

theorem test_decode_mulhis : decode 0x4BC58000#32 = .ok (.mulhis 15 1 6) ∧ encode (.mulhis 15 1 6) = 0x4BC58000#32 := by decide

theorem test_decode_divwq : decode 0x4F3C8A01#32 = .ok (.divwq 12 15 2 5 .checked) ∧ encode (.divwq 12 15 2 5 .checked) = 0x4F3C8A01#32 := by decide

theorem test_decode_divwr : decode 0x51361A00#32 = .ok (.divwr 4 13 8 13) ∧ encode (.divwr 4 13 8 13) = 0x51361A00#32 := by decide

theorem test_decode_ldsf : decode 0x55000070#32 = .ok (.ldsf 4 7) ∧ encode (.ldsf 4 7) = 0x55000070#32 := by decide

theorem test_decode_rinc : decode 0x63D61204#32 = .ok (.rinc 15 5 8 9 .ceiling) ∧ encode (.rinc 15 5 8 9 .ceiling) = 0x63D61204#32 := by decide

theorem test_decode_rcls : decode 0x66E90000#32 = .ok (.rcls 11 10 4) ∧ encode (.rcls 11 10 4) = 0x66E90000#32 := by decide

theorem test_decode_rcls2 : decode 0x6B30C000#32 = .ok (.rcls2 12 12 3) ∧ encode (.rcls2 12 12 3) = 0x6B30C000#32 := by decide

theorem test_decode_rclsw : decode 0x6C9B8A00#32 = .ok (.rclsw 2 6 14 5) ∧ encode (.rclsw 2 6 14 5) = 0x6C9B8A00#32 := by decide

theorem test_decode_rminv : decode 0x70C00000#32 = .ok (.rminv 3 .up) ∧ encode (.rminv 3 .up) = 0x70C00000#32 := by decide

theorem test_decode_divs : decode 0x81B100BB#32 = .ok (.divs 6 12 4 11 .halfDown .checked) ∧ encode (.divs 6 12 4 11 .halfDown .checked) = 0x81B100BB#32 := by decide

theorem test_decode_muls : decode 0x84CFC0FF#32 = .ok (.muls 3 3 15 15 .unnecessary .checked) ∧ encode (.muls 3 3 15 15 .unnecessary .checked) = 0x84CFC0FF#32 := by decide

theorem test_decode_sqrs : decode 0x8890008E#32 = .ok (.sqrs 2 4 8 .unnecessary .unchecked) ∧ encode (.sqrs 2 4 8 .unnecessary .unchecked) = 0x8890008E#32 := by decide

theorem test_decode_sqrts : decode 0x8C180110#32 = .ok (.sqrts 0 6 17 .up) ∧ encode (.sqrts 0 6 17 .up) = 0x8C180110#32 := by decide

theorem test_decode_shl : decode 0x90A2C007#32 = .ok (.shl 2 8 11 .floor .checked) ∧ encode (.shl 2 8 11 .floor .checked) = 0x90A2C007#32 := by decide

theorem test_decode_shr : decode 0x95D9C007#32 = .ok (.shr 7 6 7 .floor .checked) ∧ encode (.shr 7 6 7 .floor .checked) = 0x95D9C007#32 := by decide

theorem test_decode_mulp10 : decode 0x9AC00008#32 = .ok (.mulp10 11 0 0 .halfUp .unchecked) ∧ encode (.mulp10 11 0 0 .halfUp .unchecked) = 0x9AC00008#32 := by decide

theorem test_decode_divp10 : decode 0x9EFAC006#32 = .ok (.divp10 11 14 11 .floor .unchecked) ∧ encode (.divp10 11 14 11 .floor .unchecked) = 0x9EFAC006#32 := by decide

theorem test_decode_adds : decode 0xA1FD9E6E#32 = .ok (.adds 7 15 6 6 15 .unnecessary .unchecked) ∧ encode (.adds 7 15 6 6 15 .unnecessary .unchecked) = 0xA1FD9E6E#32 := by decide

theorem test_decode_subs : decode 0xA6C8DA6E#32 = .ok (.subs 11 2 3 6 13 .unnecessary .unchecked) ∧ encode (.subs 11 2 3 6 13 .unnecessary .unchecked) = 0xA6C8DA6E#32 := by decide

/-- Each word is accepted by the row of its own mnemonic and by no other row. -/
theorem test_match_rows :
    [ (0x06930001#32, "ADD"), (0x08584000#32, "SUB"), (0x0DCB4000#32, "MUL"), (0x10704001#32, "DIV"),
      (0x17500000#32, "ABS"), (0x19AC0000#32, "NEG"), (0x23F68000#32, "UCMP"), (0x265D4000#32, "ULT"),
      (0x2ABA4000#32, "UGT"), (0x2E93C000#32, "ULE"), (0x32AFC000#32, "UDIV"), (0x43C84000#32, "MULLO"),
      (0x472C0000#32, "MULHIU"), (0x4BC58000#32, "MULHIS"), (0x4F3C8A01#32, "DIVWQ"), (0x51361A00#32, "DIVWR"),
      (0x55000070#32, "LDSF"), (0x63D61204#32, "RINC"), (0x66E90000#32, "RCLS"), (0x6B30C000#32, "RCLS2"),
      (0x6C9B8A00#32, "RCLSW"), (0x70C00000#32, "RMINV"), (0x81B100BB#32, "DIVS"), (0x84CFC0FF#32, "MULS"),
      (0x8890008E#32, "SQRS"), (0x8C180110#32, "SQRTS"), (0x90A2C007#32, "SHL"), (0x95D9C007#32, "SHR"),
      (0x9AC00008#32, "MULP10"), (0x9EFAC006#32, "DIVP10"), (0xA1FD9E6E#32, "ADDS"), (0xA6C8DA6E#32, "SUBS") ].all
      (fun p => (matchTable.filter (·.accepts p.1)).map (·.mnemonic) == [p.2]) = true := by decide

theorem test_asm_text :
    asmText (.divs 3 1 2 0 .halfUp .checked) = "DIVS.HALF_UP.C r3, r1, r2, s=0"
      ∧ asmText (.ldsf 4 18) = "LDSF r4, s=18"
      ∧ asmText (.adds 5 1 2 2 4 .halfEven .unchecked) = "ADDS.HALF_EVEN.U r5, r1, r2, s=2, s2=4" := by decide

/-! ### Illegal words (95 section 2.2) -/

theorem test_illegal_opcode :
    [0x00000000#32, 0xFFFFFFFF#32, 0x1C000000#32, 0x34000000#32, 0x58000000#32, 0x74000000#32, 0xA8000000#32].map decode
      = List.replicate 7 (.error .unassignedOpcode) := by decide

theorem test_illegal_unused_field :
    [0x0448C002#32, 0x0448C010#32, 0x0448C200#32, 0x2048C001#32, 0x1448C001#32, 0x54440050#32, 0x70400007#32, 0x4C48E801#32,
      0x5048C801#32, 0x8048C229#32, 0x8C480029#32, 0x8C494028#32, 0x9048C033#32].map decode
      = List.replicate 13 (.error .unusedFieldNotZero) := by decide

theorem test_illegal_scale :
    [0x54400130#32, 0x544001F0#32, 0x8048C139#32, 0xA048C539#32].map decode = List.replicate 4 (.error .scaleAbove18)
      ∧ decode 0xA048E629#32 = .error .secondScaleAbove18 := by decide

theorem test_illegal_word_raises : Raises 0x00000000 1 2 3 5 0b10000 := by decide

/-! ### WellFormed refuses an ill-formed term of each check -/

theorem test_wf_ldsf : (Instr.ldsf 4 19).wf = false ∧ (Instr.ldsf 4 18).wf = true := by decide

theorem test_wf_divs : (Instr.divs 4 1 2 19 .up .checked).wf = false := by decide

theorem test_wf_muls : (Instr.muls 4 1 2 19 .up .checked).wf = false := by decide

theorem test_wf_sqrs : (Instr.sqrs 4 1 19 .up .checked).wf = false := by decide

theorem test_wf_sqrts : (Instr.sqrts 4 1 19 .up).wf = false := by decide

theorem test_wf_adds :
    (Instr.adds 4 1 2 19 0 .up .checked).wf = false ∧ (Instr.adds 4 1 2 0 19 .up .checked).wf = false := by decide

theorem test_wf_subs :
    (Instr.subs 4 1 2 19 0 .up .checked).wf = false ∧ (Instr.subs 4 1 2 0 19 .up .checked).wf = false := by decide

/-! ### Commands, one step each (95 sections 1 and 3) -/

theorem test_add_wraps : Gives 0x05048000 9223372036854775807 1 0 (-9223372036854775808) := by decide

theorem test_add_overflows : Raises 0x05048001 (-9223372036854775808) (-1) 0 1 0b00001 := by decide

theorem test_sub_order : Gives 0x09048001 5 7 0 (-2) := by decide

theorem test_sub_overflows : Raises 0x09048001 0 (-9223372036854775808) 0 1 0b00001 := by decide

theorem test_mul_largest_square : Gives 0x0D048001 3037000499 3037000499 0 9223372030926249001 := by decide

theorem test_mul_wraps : Gives 0x0D048000 3037000500 3037000500 0 (-9223372036709301616) := by decide

theorem test_div_truncates : Gives 0x11048001 (-7) 2 0 (-3) := by decide

theorem test_div_by_zero_unchecked : Raises 0x11048000 0 0 0 2 0b00010 := by decide

theorem test_abs_of_negative : Gives 0x15040001 (-5) 0 0 5 := by decide

theorem test_abs_of_min : Raises 0x15040001 (-9223372036854775808) 0 0 1 0b00001 := by decide

theorem test_neg_of_max : Gives 0x19040001 9223372036854775807 0 0 (-9223372036854775807) := by decide

theorem test_neg_of_min_unchecked : Gives 0x19040000 (-9223372036854775808) 0 0 (-9223372036854775808) := by decide

theorem test_ucmp_is_unsigned : Gives 0x21048000 9223372036854775807 (-9223372036854775808) 0 (-1) := by decide

theorem test_ucmp_equal : Gives 0x21048000 (-9223372036854775808) (-9223372036854775808) 0 0 := by decide

theorem test_ult_is_unsigned : Gives 0x25048000 0 (-1) 0 1 := by decide

theorem test_ugt_is_unsigned : Gives 0x29048000 (-9223372036854775808) 9223372036854775807 0 1 := by decide

theorem test_ule_equal : Gives 0x2D048000 (-1) (-1) 0 1 := by decide

theorem test_udiv_is_unsigned : Gives 0x31048000 (-1) 10 0 0x1999999999999999 := by decide

theorem test_udiv_by_zero : Raises 0x31048000 0 0 0 2 0b00010 := by decide

theorem test_mullo_low_half : Gives 0x41048000 0x123456789ABCDEF0 0x0FEDCBA987654321 0 0x2236D88FE5618CF0 := by decide

theorem test_mulhiu_is_unsigned : Gives 0x45048000 (-2) 3 0 2 := by decide

theorem test_mulhis_is_signed : Gives 0x49048000 (-2) 3 0 (-1) := by decide

theorem test_divwq_widest_quotient : Gives 0x4D048601 (-2) (-1) (-1) (-1) := by decide

theorem test_divwq_overflows : Raises 0x4D048601 2 5 2 1 0b00001 := by decide

theorem test_divwr_wide_quotient : Gives 0x51048600 0x06F05B59D3B1FFFF 0xF21F494C589C0000 3 1 := by decide

theorem test_divwr_by_zero : Raises 0x51048600 0 0 0 2 0b00010 := by decide

theorem test_ldsf_9 : Gives 0x55000090 0 0 0 1000000000 := by decide

theorem test_ldsf_18 : Gives 0x55000120 0 0 0 1000000000000000000 := by decide

theorem test_rinc_half_even_odd : Gives 0x6104860C (-9223372036854775808) 1 2 (-1) := by decide

theorem test_rinc_domain_first : Raises 0x6104860E 1 0 4 4 0b01000 := by decide

theorem test_rcls_tie : Gives 0x65048000 5 10 0 2 := by decide

theorem test_rcls_no_wrap_of_doubling : Gives 0x65048000 (-9223372036854775808) (-1) 0 3 := by decide

theorem test_rcls2_tie_at_64 : Gives 0x69048000 (-9223372036854775808) 64 0 2 := by decide

theorem test_rcls2_huge_exponent : Gives 0x69048000 (-1) (-1) 0 1 := by decide

theorem test_rclsw_tie_at_128 : Gives 0x6D048600 (-9223372036854775808) 0 128 2 := by decide

theorem test_rclsw_huge_exponent : Gives 0x6D048600 (-1) (-1) 5000 1 := by decide

theorem test_rminv_ceiling : Gives 0x71000004 0 0 0 3 := by decide

theorem test_rminv_half_up : Gives 0x71000008 0 0 0 4 := by decide

theorem test_divs_half_even_tie : Gives 0x8104800D 7 2 0 4 := by decide

theorem test_divs_rounding_before_range : Raises 0x8104812F 9223372036854775807 3 0 3 0b00100 := by decide

theorem test_muls_rounds_full_product : Gives 0x85048129 (-123456789012345678) 987654321098765432 0 (-121932631137021794) := by decide

theorem test_muls_wraps_rounded_value : Gives 0x8504812C 9223372036854775807 9223372036854775807 0 (-7163128638313142233) := by decide

theorem test_sqrs_wraps : Gives 0x89040122 (-9223372036854775808) 0 0 (-7163128638313142215) := by decide

theorem test_sqrs_not_exact : Raises 0x8904012F 999999999 0 0 3 0b00100 := by decide

theorem test_sqrts_down_2 : Gives 0x8D040002 2 0 0 1 := by decide

theorem test_sqrts_negative : Raises 0x8D040002 (-2) 0 0 4 0b01000 := by decide

theorem test_shl_into_sign : Gives 0x91048003 (-1) 63 0 (-9223372036854775808) := by decide

theorem test_shl_by_min : Gives 0x91048001 (-7) (-9223372036854775808) 0 (-1) := by decide

theorem test_shr_exact : Gives 0x9504800F 12 2 0 3 := by decide

theorem test_shr_left_by_63 : Gives 0x95048002 1 (-63) 0 (-9223372036854775808) := by decide

theorem test_mulp10_wraps : Gives 0x99048002 1 19 0 (-8446744073709551616) := by decide

theorem test_mulp10_min_exponent : Gives 0x99048007 (-1) (-9223372036854775808) 0 (-1) := by decide

theorem test_divp10_tie_stays_even : Gives 0x9D04800D 12250 2 0 122 := by decide

theorem test_divp10_not_exact : Raises 0x9D04800E 12345 2 0 3 0b00100 := by decide

theorem test_adds_tie_across_zero : Gives 0xA104820D 2 (-15) 0 0 := by decide

theorem test_adds_scale_up_overflows : Raises 0xA1048123 9223372036854775807 10 0 1 0b00001 := by decide

theorem test_subs_rounds : Gives 0xA5048829 150 12345 0 27 := by decide

theorem test_subs_negates_exactly : Gives 0xA5048203 0 (-9223372036854775808) 0 922337203685477580 := by decide

/-! ### Exceptions, the status registers, the host operations (R23 to R25, R28, R43, R191, R193) -/

/-- R191 and R193: codes 1 to 5 and their FLAGS bits. -/
theorem test_exception_codes :
    [Exn.overflow, .divByZero, .roundingNecessary, .invalidDomain, .illegalCommand].map (fun e => (exnCode e, flagBit e))
      = [(1, 0b00001), (2, 0b00010), (3, 0b00100), (4, 0b01000), (5, 0b10000)] := by decide

/-- A raise keeps the other sticky bits and overwrites CAUSE and ECMD. -/
theorem test_raise_is_sticky :
    stepStatus { waiting 1 0 0 [.cmd 0x11048001#32] with flags := 0b10001, cause := 5, ecmd := 0xFFFFFFFF#32 }
      = some (0b10011, 2, 0x11048001#32) := by decide

/-- A completed command leaves the status registers. -/
theorem test_completion_leaves_status :
    stepStatus { waiting 1 2 0 [.cmd 0x05048001#32] with flags := 0b10001, cause := 5, ecmd := 0xFFFFFFFF#32 }
      = some (0b10001, 5, 0xFFFFFFFF#32) := by decide

/-- CLRF clears the bits of its mask only, and neither CAUSE nor ECMD. -/
theorem test_clrf :
    stepStatus { waiting 0 0 0 [.clrf 0xFFFFFFFFFFFFFF01#64] with flags := 0b10011, cause := 2, ecmd := 7#32 }
      = some (0b10010, 2, 7#32) := by decide

theorem test_reset_clears_status :
    stepStatus { waiting 0 0 0 [.reset] with flags := 0b10011, cause := 2, ecmd := 7#32 } = some (0, 0, 0) := by decide

theorem test_wr : stepR4 (waiting 0 0 0 [.wr 4 (-1#64)]) = some (-1, .nothing) := by decide

theorem test_rd : stepR4 (waiting 0 5 0 [.rd 2]) = some (77, .value 5) := by decide

theorem test_rds_unimplemented_number :
    stepR4 { waiting 0 0 0 [.rds 3] with flags := 0b10011, cause := 2, ecmd := 7#32 } = some (77, .value 0) := by decide

theorem test_rds_flags : stepR4 { waiting 0 0 0 [.rds 0] with flags := 0b10011 } = some (77, .value 0x13) := by decide

theorem test_fetch_word_runs_next :
    stepR4 ((small 6 7 0).withFetchWord 32 0x0D048001) = some (42, .response 0)
      ∧ decodeTableWord 32 0x0D048001 = some (.mul 4 1 2 .checked) := by decide

theorem test_idle_step : stepR4 (small 1 2 3) = some (77, .nothing) := by decide

/-! ### Realisations, on the rows the spec works out (95 section 1.3, 3.3, 3.4) -/

theorem test_add_overflow_rule :
    addOverflows (wrap64 9223372036854775807) 1 = true
      ∧ addOverflows (wrap64 9223372036854775807) (wrap64 (-9223372036854775808)) = false := by decide

theorem test_halved_classification :
    classifyHalved 3 7 = .lessThanHalfNonzero ∧ classifyHalved 4 7 = .greaterThanHalf
      ∧ classifyHalved 3 6 = .equalToHalf ∧ classifyHalved 0 6 = .zero := by decide

theorem test_unsigned_divide_sequence :
    divideByHalving 0xFFFFFFFFFFFFFFFD#64 3 = 6148914691236517204
      ∧ divideByHalving 0xFFFFFFFFFFFFFFFA#64 4 = 4611686018427387902 := by decide

theorem test_partial_products :
    mulWide 0x123456789ABCDEF0#64 0x0FEDCBA987654321#64 = (0x0121FA00AD77D742#64, 0x2236D88FE5618CF0#64) := by decide

theorem test_wide_division :
    div128by64 0x06F05B59D3B1FFFF 0xF21F494C589C0000 0x0DE0B6B3A7640000 = (0x7FFFFFFFFFFFFFFF, 0) := by decide

theorem test_root_remainders :
    sqrtLoop 64 6 = (2, 2) ∧ sqrtLoop 64 7 = (2, 3) ∧ sqrtLoop 64 (2 * 10 ^ 36) = (1414213562373095048,
      2 * 10 ^ 36 - 1414213562373095048 ^ 2) := by decide

/-! ### Witnesses: states and operands that meet the hypotheses of each statement, clause by clause -/

@[simp] theorem small_r1 (a b c : Int) : (small a b c).reg 1 = wrap64 a := rfl
@[simp] theorem small_r2 (a b c : Int) : (small a b c).reg 2 = wrap64 b := rfl
@[simp] theorem small_r3 (a b c : Int) : (small a b c).reg 3 = wrap64 c := rfl

/-- Reading back a wrapped value in range. -/
theorem wrap64_toInt (v : Int) (h₁ : -9223372036854775808 ≤ v) (h₂ : v < 9223372036854775808) : (wrap64 v).toInt = v := by
  rw [wrap64, BitVec.toInt_ofInt]
  exact Int.bmod_eq_of_le (by omega) (by omega)

/-- A quotient whose divisor does not divide is no integer. -/
theorem quotient_ne_int (n d : ℤ) (hd : d ≠ 0) (h : ¬d ∣ n) (v : ℤ) : (n : ℝ) / d ≠ v := by
  intro e
  have hd' : (d : ℝ) ≠ 0 := by exact_mod_cast hd
  rw [div_eq_iff hd'] at e
  exact h ⟨v, by rw [mul_comm]; exact_mod_cast e⟩

theorem witness_DecodeOfEncodeIsTheCommand :
    (Instr.adds 15 0 15 18 18 .unnecessary .checked).wf = true ∧ (Instr.ldsf 0 0).wf = true := by decide

theorem witness_EncodeOfDecodedWordIsTheWord :
    decode 0xA7FFE52F#32 = .ok (.subs 15 15 15 18 18 .unnecessary .checked)
      ∧ decode 0x04000000#32 = .ok (.add 0 0 0 .unchecked) := by decide

theorem witness_StepRunsTheDecodedCommand :
    (waiting 1 2 0 [.cmd 0x05048001#32, .rd 4]).pending = .cmd 0x05048001#32 :: [.rd 4]
      ∧ decode 0x05048001#32 = .ok (.add 4 1 2 .checked) := by decide

theorem witness_StepRaisesOnAnIllegalWord :
    (waiting 1 2 0 [.cmd 0xFFFFFFFF#32]).pending = .cmd 0xFFFFFFFF#32 :: []
      ∧ decode 0xFFFFFFFF#32 = .error .unassignedOpcode ∧ decode 0x8048C139#32 = .error .scaleAbove18
      ∧ decode 0xA048E629#32 = .error .secondScaleAbove18 ∧ decode 0x0448C002#32 = .error .unusedFieldNotZero := by
  decide

theorem witness_HostWritesAndReadsRegisters :
    (waiting 0 0 0 [.wr 15 7]).pending = .wr 15 7 :: [] ∧ (waiting 0 0 0 [.rd 0, .reset]).pending = .rd 0 :: [.reset] := by
  decide

theorem witness_HostReadsAndClearsStatus :
    (waiting 0 0 0 [.rds 0]).pending = .rds 0 :: [] ∧ (waiting 0 0 0 [.rds 1]).pending = .rds 1 :: []
      ∧ (waiting 0 0 0 [.rds 2]).pending = .rds 2 :: [] ∧ (waiting 0 0 0 [.rds 3]).pending = .rds 3 :: []
      ∧ (waiting 0 0 0 [.clrf 31]).pending = .clrf 31 :: [] := by decide

theorem witness_ResetOperationClearsStatus :
    (waiting 0 0 0 [.reset, .rds 0]).pending = .reset :: [.rds 0] := by decide

/-- A state before any exception that raises one, one that holds an illegal word, one that holds a raising word. -/
theorem witness_StepKeepsStatusConsistent :
    (statusConsistent (waiting 1 0 0 [.cmd 0x11048001#32]) = true
        ∧ stepStatus (waiting 1 0 0 [.cmd 0x11048001#32]) = some (2, 2, 0x11048001#32))
      ∧ (statusConsistent { waiting 1 0 0 [.clrf 31] with flags := 16, cause := 5, ecmd := 0xFFFFFFFF#32 } = true
        ∧ (stepStatus { waiting 1 0 0 [.clrf 31] with flags := 16, cause := 5, ecmd := 0xFFFFFFFF#32 }).isSome = true)
      ∧ statusConsistent { small 1 0 0 with flags := 1, cause := 1, ecmd := 0x05048001#32 } = true
      ∧ statusConsistent { small 1 0 0 with flags := 1, cause := 1, ecmd := 0x05048000#32 } = false := by decide

theorem witness_CommandsRaiseOnlyWhatTheTableLists :
    (∃ t, exec (.add 4 1 2 .checked) (small 9223372036854775807 1 0) = .next t
        ∧ t.reply = .response (exnCode .overflow))
      ∧ (∃ t, exec (.udiv 4 1 2) (small 1 0 0) = .next t ∧ t.reply = .response (exnCode .divByZero))
      ∧ (∃ t, exec (.divs 4 1 2 0 .unnecessary .checked) (small 1 2 0) = .next t
        ∧ t.reply = .response (exnCode .roundingNecessary))
      ∧ ∃ t, exec (.sqrts 4 1 0 .up) (small (-1) 0 0) = .next t ∧ t.reply = .response (exnCode .invalidDomain) :=
  ⟨⟨_, rfl, by decide⟩, ⟨_, rfl, by decide⟩, ⟨_, rfl, by decide⟩, ⟨_, rfl, by decide⟩⟩

/-- Two states that differ in an unnamed register and in the status registers. -/
theorem witness_ResultDependsOnlyOnNamedSources :
    (∀ r ∈ sourcesOf (.add 4 1 2 .checked), (small 7 8 0).reg r = ({ small 7 8 9 with flags := 1 } : State).reg r)
      ∧ small 7 8 0 ≠ { small 7 8 9 with flags := 1 } := by decide

/-- The checked form completes; raises OVERFLOW; raises another exception. -/
theorem witness_CheckedAndUncheckedAgree :
    (∃ tc tu, exec (withOverflowMode .checked (.div 4 1 2 .checked)) (small 7 2 0) = .next tc
        ∧ exec (withOverflowMode .unchecked (.div 4 1 2 .checked)) (small 7 2 0) = .next tu ∧ tc.reply = .response 0)
      ∧ (∃ tc tu, exec (withOverflowMode .checked (.div 4 1 2 .checked)) (small (-9223372036854775808) (-1) 0) = .next tc
        ∧ exec (withOverflowMode .unchecked (.div 4 1 2 .checked)) (small (-9223372036854775808) (-1) 0) = .next tu
        ∧ tc.reply = .response 1)
      ∧ ∃ tc tu, exec (withOverflowMode .checked (.div 4 1 2 .checked)) (small 7 0 0) = .next tc
        ∧ exec (withOverflowMode .unchecked (.div 4 1 2 .checked)) (small 7 0 0) = .next tu ∧ tc.reply = .response 2 :=
  ⟨⟨_, _, rfl, rfl, by decide⟩, ⟨_, _, rfl, rfl, by decide⟩, ⟨_, _, rfl, rfl, by decide⟩⟩

/-- FLAGS gains bit 1 by a raise, and bit 4, the highest, by an illegal word; it loses a bit by CLRF; CAUSE and ECMD change
by a raise. -/
theorem witness_StatusChangesOnlyByRaiseClearReset :
    (∃ t, step { waiting 1 0 0 [.cmd 0x11048001#32] with flags := 1 } = .next t ∧ t.flags &&& ~~~(1#5) = 0b00010)
      ∧ (∃ t, step (waiting 0 0 0 [.cmd 0#32]) = .next t ∧ t.flags &&& ~~~(0#5) = 0b10000)
      ∧ (∃ t, step { waiting 0 0 0 [.clrf 1] with flags := 3 } = .next t ∧ (3#5) &&& ~~~t.flags ≠ 0)
      ∧ ∃ t, step (waiting 1 0 0 [.cmd 0x11048001#32]) = .next t ∧ t.cause ≠ (small 1 0 0).cause :=
  ⟨⟨_, rfl, by decide⟩, ⟨_, rfl, by decide⟩, ⟨_, rfl, by decide⟩, ⟨_, rfl, by decide⟩⟩

/-- A register changes by WR and by a completed command. -/
theorem witness_RegistersChangeOnlyByWriteCompletionReset :
    (∃ t, step (waiting 0 0 0 [.wr 15 1]) = .next t ∧ t.reg 15 ≠ (small 0 0 0).reg 15)
      ∧ ∃ t, step (waiting 1 2 0 [.cmd 0x05048001#32]) = .next t ∧ t.reg 4 ≠ (small 1 2 0).reg 4 :=
  ⟨⟨_, rfl, by decide⟩, ⟨_, rfl, by decide⟩⟩

theorem witness_RoundIsTheTextbookRounding :
    (-2 : Int) ≠ 0 ∧ roundQuotient .halfEven 7 (-2) = .ok (-4)
      ∧ roundQuotient .unnecessary 7 (-2) = .error .roundingNecessary := by decide

theorem witness_RoundOfTheNegatedQuantity :
    (2 : Int) ≠ 0 ∧ roundQuotient .ceiling 7 2 = .ok 4 ∧ roundQuotient .unnecessary 7 2 = .error .roundingNecessary := by
  decide

theorem witness_RoundingKeepsItsThreeProperties :
    (-2 : Int) ≠ 0 ∧ (-2 : Int) ∣ 6 ∧ 2 * ((7 : Int).natAbs % (-2 : Int).natAbs) = (-2 : Int).natAbs
      ∧ roundQuotient .up 7 (-2) = .ok (-4) := by decide

/-- Part codes at the limits of each clause: 0, 1, 3, 4, and the largest pattern; both signs. -/
theorem witness_RincFollowsTheIncrementTable :
    ((small 5 3 0).reg 3).toNat = 0 ∧ ((small 5 3 1).reg 3).toNat = 1 ∧ ((small 5 3 3).reg 3).toNat = 3
      ∧ ((small 5 3 4).reg 3).toNat = 4 ∧ ((small 5 3 (-1)).reg 3).toNat = 2 ^ 64 - 1
      ∧ (1#64 = if ((small 5 3 0).reg 1).getLsbD 63 then -1#64 else 1#64)
      ∧ (-1#64 = if ((small (-5) 3 0).reg 1).getLsbD 63 then -1#64 else 1#64) := by decide

/-- Sums and differences on both sides of both limits. -/
theorem witness_AddAndSubWriteOrOverflow :
    (∀ p ∈ [((9223372036854775806 : Int), (1 : Int)), (-9223372036854775807, -1)],
        minValue ≤ ((small p.1 p.2 0).reg 1).toInt + ((small p.1 p.2 0).reg 2).toInt
          ∧ ((small p.1 p.2 0).reg 1).toInt + ((small p.1 p.2 0).reg 2).toInt ≤ maxValue)
      ∧ (∀ p ∈ [((9223372036854775807 : Int), (1 : Int)), (-9223372036854775808, -1)],
        ¬(minValue ≤ ((small p.1 p.2 0).reg 1).toInt + ((small p.1 p.2 0).reg 2).toInt
          ∧ ((small p.1 p.2 0).reg 1).toInt + ((small p.1 p.2 0).reg 2).toInt ≤ maxValue))
      ∧ (∀ p ∈ [((9223372036854775806 : Int), (-1 : Int)), (-9223372036854775807, 1)],
        minValue ≤ ((small p.1 p.2 0).reg 1).toInt - ((small p.1 p.2 0).reg 2).toInt
          ∧ ((small p.1 p.2 0).reg 1).toInt - ((small p.1 p.2 0).reg 2).toInt ≤ maxValue)
      ∧ ∀ p ∈ [((9223372036854775807 : Int), (-1 : Int)), (0, -9223372036854775808)],
        ¬(minValue ≤ ((small p.1 p.2 0).reg 1).toInt - ((small p.1 p.2 0).reg 2).toInt
          ∧ ((small p.1 p.2 0).reg 1).toInt - ((small p.1 p.2 0).reg 2).toInt ≤ maxValue) := by decide

theorem witness_MulWritesOrOverflows :
    (9223372030926249001 : Int) = ((small 3037000499 3037000499 0).reg 1).toInt * ((small 3037000499 3037000499 0).reg 2).toInt
      ∧ (minValue ≤ 9223372030926249001 ∧ 9223372030926249001 ≤ maxValue)
      ∧ (9223372037000250000 : Int)
        = ((small 3037000500 3037000500 0).reg 1).toInt * ((small 3037000500 3037000500 0).reg 2).toInt
      ∧ ¬(minValue ≤ 9223372037000250000 ∧ 9223372037000250000 ≤ maxValue) := by decide

theorem witness_DivTruncatesOrRaises :
    ((small (-7) 2 0).reg 2 ≠ 0
        ∧ ¬(OverflowMode.checked = .checked ∧ (small (-7) 2 0).reg 1 = 0x8000000000000000#64 ∧ (small (-7) 2 0).reg 2 = -1#64))
      ∧ (small 7 0 0).reg 2 = 0
      ∧ (small (-9223372036854775808) (-1) 0).reg 1 = 0x8000000000000000#64
      ∧ (small (-9223372036854775808) (-1) 0).reg 2 = -1#64 := by decide

theorem witness_AbsAndNegWriteOrOverflow :
    ¬(OverflowMode.checked = .checked ∧ (small (-9223372036854775807) 0 0).reg 1 = 0x8000000000000000#64)
      ∧ (small (-9223372036854775808) 0 0).reg 1 = 0x8000000000000000#64 := by decide

/-- Unsigned operands in each order, with bit 63 set in one. -/
theorem witness_UnsignedComparisonsWriteTheirVerdict :
    (0 = ((small 0 (-1) 0).reg 1).toNat ∧ 2 ^ 64 - 1 = ((small 0 (-1) 0).reg 2).toNat)
      ∧ (2 ^ 64 - 1 = ((small (-1) 0 0).reg 1).toNat ∧ 0 = ((small (-1) 0 0).reg 2).toNat)
      ∧ 2 ^ 63 = ((small (2 ^ 63) (2 ^ 63) 0).reg 1).toNat ∧ 2 ^ 63 = ((small (2 ^ 63) (2 ^ 63) 0).reg 2).toNat := by
  decide

theorem witness_UdivWritesTheUnsignedQuotient : (small 1 (-1) 0).reg 2 ≠ 0 ∧ (small 1 0 0).reg 2 = 0 := by decide

/-- Program 5 of 95: 0xFFFFFFFFFFFFFFFF by 10. -/
theorem witness_UdivThenMulloThenSubGivesTheRemainder :
    (3 : Reg) ≠ 1 ∧ (3 : Reg) ≠ 2 ∧ (4 : Reg) ≠ 1 ∧ (small (-1) 10 0).reg 2 ≠ 0
      ∧ ∃ t1 t2, exec (.udiv 3 1 2) (small (-1) 10 0) = .next t1 ∧ exec (.mullo 4 3 2) t1 = .next t2 :=
  ⟨by decide, by decide, by decide, by decide, _, _, rfl, rfl⟩

theorem witness_UnsignedRealisationsAreExact : (1#64) ≠ 0 ∧ (0xFFFFFFFFFFFFFFFF#64) ≠ 0 := by decide

theorem witness_WideningMultiplyWritesTheHalves :
    (-2#64) = (small (-2) 3 0).reg 1 ∧ 3#64 = (small (-2) 3 0).reg 2 := by decide

/-- The high word just below the divisor, equal to it, and a zero divisor. -/
theorem witness_WideDivisionWritesQuotientAndRemainder :
    (2#64 = (small 2 5 3).reg 1 ∧ 5#64 = (small 2 5 3).reg 2 ∧ 3#64 = (small 2 5 3).reg 3 ∧ 3#64 ≠ 0
        ∧ (2#64).toNat < (3#64).toNat)
      ∧ (2#64 = (small 2 5 2).reg 1 ∧ 5#64 = (small 2 5 2).reg 2 ∧ 2#64 = (small 2 5 2).reg 3 ∧ 2#64 ≠ 0
        ∧ (2#64).toNat ≤ (2#64).toNat)
      ∧ 5#64 = (small 5 5 0).reg 1 ∧ 5#64 = (small 5 5 0).reg 2 ∧ 0#64 = (small 5 5 0).reg 3 := by decide

theorem witness_LdsfWritesThePowerOfTen :
    (0 ≤ 18 ∧ (1#64).toNat = 10 ^ 0) ∧ 18 ≤ 18 ∧ (1000000000000000000#64).toNat = 10 ^ 18 := by decide

theorem witness_NormalisedDivisionIsExact :
    (2 ^ 64 - 2 < 2 ^ 64 - 1 ∧ 2 ^ 64 - 1 < 2 ^ 64) ∧ 0 < 1 ∧ 0 < 2 ^ 64 ∧ 1 < 2 ^ 64 := by decide

/-- A rounding in range, a rounding out of range, and a quotient that is no integer. -/
theorem witness_DivsRoundsTheExactQuotientOnce :
    (0 ≤ 18 ∧ 1 ≤ 18)
      ∧ (small 5 0 0).reg 2 = 0 ∧ (small 7 2 0).reg 2 ≠ 0
      ∧ (IsRoundingOf .halfEven (((small 7 2 0).reg 1).toInt * 10 ^ 0 / ((small 7 2 0).reg 2).toInt) 4
        ∧ minValue ≤ 4 ∧ 4 ≤ maxValue)
      ∧ (IsRoundingOf .up (((small 9223372036854775807 1 0).reg 1).toInt * 10 ^ 1
          / ((small 9223372036854775807 1 0).reg 2).toInt) 92233720368547758070
        ∧ ¬(minValue ≤ 92233720368547758070 ∧ (92233720368547758070 : Int) ≤ maxValue))
      ∧ ∀ v : ℤ, (((small 7 2 0).reg 1).toInt : ℝ) * 10 ^ 0 / ((small 7 2 0).reg 2).toInt ≠ v := by
  refine ⟨by decide, by decide, by decide, ⟨?_, by decide⟩, ⟨?_, by decide⟩, ?_⟩
  · norm_num [IsRoundingOf, wrap64_toInt, abs_of_pos, Int.even_iff]
  · norm_num [IsRoundingOf, wrap64_toInt]
  · have := quotient_ne_int 7 2 (by decide) (by decide)
    norm_num [wrap64_toInt] at this ⊢
    exact this

/-- Every row, at scales 0 and 18 where they differ. -/
theorem witness_DivsSpecialCases :
    ((small 5 0 0).reg 2).toInt = 0
      ∧ (((small 0 5 0).reg 1).toInt = 0 ∧ ((small 0 5 0).reg 2).toInt ≠ 0)
      ∧ (((small 5 1 0).reg 2).toInt = 10 ^ 0 ∧ ((small 5 1000000000000000000 0).reg 2).toInt = 10 ^ 18)
      ∧ (((small 5 (-1000000000000000000) 0).reg 2).toInt = -10 ^ 18
        ∧ ((small 5 (-1000000000000000000) 0).reg 1).toInt ≠ minValue)
      ∧ (((small (-9223372036854775808) (-1) 0).reg 2).toInt = -10 ^ 0
        ∧ ((small (-9223372036854775808) (-1) 0).reg 1).toInt = minValue)
      ∧ (((small 9 (-1) 0).reg 2).toInt = -1 ∧ minValue ≤ (-1) * ((small 9 (-1) 0).reg 1).toInt * 10 ^ 18
        ∧ (-1) * ((small 9 (-1) 0).reg 1).toInt * 10 ^ 18 ≤ maxValue)
      ∧ (((small 10 1 0).reg 2).toInt = 1 ∧ ¬1 * ((small 10 1 0).reg 1).toInt * 10 ^ 18 ≤ maxValue)
      ∧ (((small (-9223372036854775808) (-9223372036854775808) 0).reg 1).toInt
          = ((small (-9223372036854775808) (-9223372036854775808) 0).reg 2).toInt)
      ∧ ((small 7 (-7) 0).reg 1).toInt = -((small 7 (-7) 0).reg 2).toInt := by decide

theorem witness_SplitDivisionIsScaledDivision : 18 ≤ 18 ∧ (0x8000000000000000#64) ≠ 0 := by decide

/-- 19 by 10 at scale 0 (95 section 1.2, P6). -/
theorem witness_DivideThenMultiplyBound :
    (3 : Reg) ≠ 2 ∧ ((small 19 10 0).reg 2).toInt ≠ 0
      ∧ ∃ t1 t2, exec (.divs 3 1 2 0 .down .checked) (small 19 10 0) = .next t1 ∧ t1.reply = .response 0
        ∧ exec (.muls 4 3 2 0 .down .checked) t1 = .next t2 ∧ t2.reply = .response 0 :=
  ⟨by decide, by decide, _, _, rfl, by decide, rfl, by decide⟩

theorem witness_MulsRoundsTheExactProductOnce :
    (2 ≤ 18 ∧ 0 ≤ 18)
      ∧ (IsRoundingOf .halfUp (((small 3 50 0).reg 1).toInt * ((small 3 50 0).reg 2).toInt / 10 ^ 2) 2
        ∧ minValue ≤ 2 ∧ 2 ≤ maxValue)
      ∧ (IsRoundingOf .down (((small 4000000000 4000000000 0).reg 1).toInt
          * ((small 4000000000 4000000000 0).reg 2).toInt / 10 ^ 0) 16000000000000000000
        ∧ ¬(16000000000000000000 : Int) ≤ maxValue)
      ∧ ∀ v : ℤ, (((small 3 50 0).reg 1).toInt : ℝ) * ((small 3 50 0).reg 2).toInt / 10 ^ 2 ≠ v := by
  refine ⟨by decide, ⟨?_, by decide⟩, ⟨?_, by decide⟩, ?_⟩
  · norm_num [IsRoundingOf, wrap64_toInt, abs_of_pos]
  · norm_num [IsRoundingOf, wrap64_toInt]
  · have := quotient_ne_int 3 2 (by decide) (by decide)
    norm_num [wrap64_toInt] at this ⊢
    exact this

theorem witness_SqrsRoundsTheExactSquareOnce :
    (1 ≤ 18 ∧ 0 ≤ 18)
      ∧ (IsRoundingOf .halfDown (((small (-5) 0 0).reg 1).toInt ^ 2 / 10 ^ 1) 2 ∧ minValue ≤ 2 ∧ 2 ≤ maxValue)
      ∧ (IsRoundingOf .down (((small 3037000500 0 0).reg 1).toInt ^ 2 / 10 ^ 0) 9223372037000250000
        ∧ ¬(9223372037000250000 : Int) ≤ maxValue)
      ∧ ∀ v : ℤ, (((small (-5) 0 0).reg 1).toInt : ℝ) ^ 2 / 10 ^ 1 ≠ v := by
  refine ⟨by decide, ⟨?_, by decide⟩, ⟨?_, by decide⟩, ?_⟩
  · norm_num [IsRoundingOf, wrap64_toInt, abs_of_pos]
  · norm_num [IsRoundingOf, wrap64_toInt]
  · have := quotient_ne_int 5 2 (by decide) (by decide)
    norm_num [wrap64_toInt] at this ⊢
    exact this

theorem witness_MulsSpecialCases :
    (((small 0 5 0).reg 1).toInt = 0 ∧ ((small 5 0 0).reg 2).toInt = 0)
      ∧ (((small 5 1000000000000000000 0).reg 2).toInt = 10 ^ 18 ∧ ((small 1 5 0).reg 1).toInt = 10 ^ 0)
      ∧ (((small 5 (-10) 0).reg 2).toInt = -10 ^ 1 ∧ ((small 5 (-10) 0).reg 1).toInt ≠ minValue)
      ∧ (((small (-9223372036854775808) (-10) 0).reg 2).toInt = -10 ^ 1
        ∧ ((small (-9223372036854775808) (-10) 0).reg 1).toInt = minValue)
      ∧ (((small (-10) 5 0).reg 1).toInt = -10 ^ 1 ∧ ((small (-10) 5 0).reg 2).toInt ≠ minValue)
      ∧ (((small (-10) (-9223372036854775808) 0).reg 1).toInt = -10 ^ 1
        ∧ ((small (-10) (-9223372036854775808) 0).reg 2).toInt = minValue)
      ∧ ((small 7 7 0).reg 1).toInt = ((small 7 7 0).reg 2).toInt
      ∧ ((small 7 (-1) 0).reg 2).toInt = -1 ∧ ((small 1 7 0).reg 1).toInt = 1 := by decide

/-- A perfect square, a negative operand, and the irrational root of 2. -/
theorem witness_SqrtsRoundsTheExactRootOnce :
    ((small (-2) 0 0).reg 1).toInt < 0
      ∧ (0 ≤ ((small 4 0 0).reg 1).toInt ∧ IsRoundingOf .unnecessary (Real.sqrt (((small 4 0 0).reg 1).toInt * 10 ^ 0)) 2)
      ∧ 0 ≤ ((small 2 0 0).reg 1).toInt
      ∧ ∀ v : ℤ, Real.sqrt (((small 2 0 0).reg 1).toInt * 10 ^ 0) ≠ v := by
  refine ⟨by decide, ⟨by decide, ?_⟩, by decide, ?_⟩
  · have : Real.sqrt 4 = 2 := by rw [show (4 : ℝ) = 2 ^ 2 by norm_num]; exact Real.sqrt_sq (by norm_num)
    norm_num [IsRoundingOf, wrap64_toInt, this]
  · intro v
    have := irrational_sqrt_two.ne_int v
    norm_num [wrap64_toInt] at this ⊢
    exact this

theorem witness_RestoringLoopIsTheIntegerRoot : 2 ^ 128 - 1 < 4 ^ 64 ∧ 0 < 4 ^ 0 := by decide

/-- The root of 2 at scale 18, under DOWN. -/
theorem witness_SqrtsBracketsTheRadicand :
    ((2 * 10 ^ 36 : Nat) : Int) = ((small 2000000000000000000 0 0).reg 1).toInt * 10 ^ 18
      ∧ ∃ t, exec (.sqrts 4 1 18 .down) (small 2000000000000000000 0 0) = .next t ∧ t.reply = .response 0
        ∧ 1414213562373095048 = (t.reg 4).toNat := ⟨by decide, _, rfl, by decide, by decide⟩

/-- A right shift that rounds, a left shift out of range, a right shift that is not exact. -/
theorem witness_ShiftsScaleByAnyPowerOfTwo :
    (IsRoundingOf .halfUp (((small 7 (-1) 0).reg 1).toInt * (2 : ℝ) ^ ((small 7 (-1) 0).reg 2).toInt) 4
        ∧ minValue ≤ 4 ∧ 4 ≤ maxValue)
      ∧ (IsRoundingOf .down (((small 1 63 0).reg 1).toInt * (2 : ℝ) ^ ((small 1 63 0).reg 2).toInt) 9223372036854775808
        ∧ ¬(9223372036854775808 : Int) ≤ maxValue)
      ∧ (∀ v : ℤ, ((small 7 (-1) 0).reg 1).toInt * (2 : ℝ) ^ ((small 7 (-1) 0).reg 2).toInt ≠ v)
      ∧ IsRoundingOf .ceiling (((small 7 1 0).reg 1).toInt * (2 : ℝ) ^ (-((small 7 1 0).reg 2).toInt)) 4 := by
  refine ⟨⟨?_, by decide⟩, ⟨?_, by decide⟩, ?_, ?_⟩
  · norm_num [IsRoundingOf, wrap64_toInt, abs_of_pos]
  · norm_num [IsRoundingOf, wrap64_toInt]
  · have := quotient_ne_int 7 2 (by decide) (by decide)
    norm_num [wrap64_toInt] at this ⊢
    exact this
  · norm_num [IsRoundingOf, wrap64_toInt]

theorem witness_ShiftRealisationsAreExact : (63 ≤ 63 ∧ 1 ≤ 63) ∧ (0 ≤ 63 ∧ 1 ≤ 1) := by decide

/-- A division by 100 that rounds, a product out of range, a quotient that is not exact. -/
theorem witness_PowersOfTenScaleByAnyExponent :
    (IsRoundingOf .halfEven (((small 12250 (-2) 0).reg 1).toInt * (10 : ℝ) ^ ((small 12250 (-2) 0).reg 2).toInt) 122
        ∧ minValue ≤ 122 ∧ 122 ≤ maxValue)
      ∧ (IsRoundingOf .down (((small 1 19 0).reg 1).toInt * (10 : ℝ) ^ ((small 1 19 0).reg 2).toInt) 10000000000000000000
        ∧ ¬(10000000000000000000 : Int) ≤ maxValue)
      ∧ (∀ v : ℤ, ((small 12250 (-2) 0).reg 1).toInt * (10 : ℝ) ^ ((small 12250 (-2) 0).reg 2).toInt ≠ v)
      ∧ IsRoundingOf .floor (((small (-5) 1 0).reg 1).toInt * (10 : ℝ) ^ (-((small (-5) 1 0).reg 2).toInt)) (-1) := by
  refine ⟨⟨?_, by decide⟩, ⟨?_, by decide⟩, ?_, ?_⟩
  · norm_num [IsRoundingOf, wrap64_toInt, abs_of_pos, Int.even_iff]
  · norm_num [IsRoundingOf, wrap64_toInt]
  · have := quotient_ne_int 245 2 (by decide) (by decide)
    norm_num [wrap64_toInt] at this ⊢
    exact this
  · norm_num [IsRoundingOf, wrap64_toInt]

/-- 2 - 1.5 under HALF_UP (95 section 3.8), a sum out of range, a sum that is not exact, and the same for SUBS. -/
theorem witness_MixedScaleSumsRoundOnce :
    (0 ≤ 18 ∧ 1 ≤ 18)
      ∧ (IsRoundingOf .halfUp (((small 2 (-15) 0).reg 1).toInt
          + ((small 2 (-15) 0).reg 2).toInt * (10 : ℝ) ^ (((0 : ℕ) : ℤ) - (1 : ℕ))) 1
        ∧ minValue ≤ 1 ∧ 1 ≤ maxValue)
      ∧ (IsRoundingOf .down (((small 0 9223372036854775807 0).reg 1).toInt
          + ((small 0 9223372036854775807 0).reg 2).toInt * (10 : ℝ) ^ (((1 : ℕ) : ℤ) - (0 : ℕ))) 92233720368547758070
        ∧ ¬(92233720368547758070 : Int) ≤ maxValue)
      ∧ (∀ v : ℤ, ((small 2 (-15) 0).reg 1).toInt
          + ((small 2 (-15) 0).reg 2).toInt * (10 : ℝ) ^ (((0 : ℕ) : ℤ) - (1 : ℕ)) ≠ v)
      ∧ IsRoundingOf .halfUp (((small 2 15 0).reg 1).toInt
          - ((small 2 15 0).reg 2).toInt * (10 : ℝ) ^ (((0 : ℕ) : ℤ) - (1 : ℕ))) 1 := by
  refine ⟨by decide, ⟨?_, by decide⟩, ⟨?_, by decide⟩, ?_, ?_⟩
  · norm_num [IsRoundingOf, wrap64_toInt, abs_of_pos]
  · norm_num [IsRoundingOf, wrap64_toInt]
  · have := quotient_ne_int 1 2 (by decide) (by decide)
    norm_num [wrap64_toInt] at this ⊢
    exact this
  · norm_num [IsRoundingOf, wrap64_toInt, abs_of_pos]

theorem witness_AddingAcrossZeroIsTheSum : (0 < 1) ∧ 0 < 18 ∧ 17 < 18 := by decide

theorem witness_SameOperationsEndAlike : (small 0 4 3).reg 1 = 0 := by decide

end Sys2Proof.Tests
end

/-! ### The encoder undoes the decoder (30_encoding.md R57, R63)

The word a raise puts into ECMD is `encode i`; these lemmas make it the word the host issued. -/

namespace Sys2Proof.Proofs

open Sys2Proof.Machine Sys2Proof.Laws

/-- The checks of R65 pass exactly when the format's check passes and every qualifier the row does not use is zero. -/
theorem rowCheck_eq_none_iff (row : OpcodeRow) (f : Fields) :
    rowCheck row f = none ↔
      formatCheck row.format f = none ∧ (row.usesS = false → f.s = 0) ∧ (row.usesS = true → f.s.val ≤ 18)
        ∧ (row.usesRm = false → f.rm = 0) ∧ (row.usesC = false → f.c = 0) := by
  unfold rowCheck
  cases formatCheck row.format f with
  | some e => simp
  | none => simp only [true_and]; split_ifs <;> simp_all

@[simp] theorem scaleField_fin (s : Fin 32) : scaleField s.val = s := Fin.ofNat_val_eq_self s

/-- Format R4: a `t` field with bit 4 clear is the field of the register it names. -/
theorem tOfReg_rs3 (f : Fields) (h : f.t.val ≤ 15) : tOfReg f.rs3 = f.t := by
  have every : ∀ t : Fin 32, t.val ≤ 15 → tOfReg (Fin.ofNat 16 t.val) = t := by decide
  exact every f.t h

/-- Row by row of the opcode map: a field the command uses is read and written back, a field it does not use is zero by
the row's checks. -/
theorem encodeFields_build (f : Fields) (row : OpcodeRow) (hrow : opcodeRow f.op = some row)
    (hcheck : rowCheck row f = none) : encodeFields (row.build f) = f := by
  obtain ⟨hformat, hs, -, hrm, hc⟩ := (rowCheck_eq_none_iff row f).mp hcheck
  obtain ⟨op, rd, rs1, rs2, t, s, rm, c⟩ := f
  unfold opcodeRow at hrow
  split at hrow <;> cases hrow <;> rename_i hop <;>
    simp_all [encodeFields, formatCheck, Fields.mode, Fields.chk, tOfReg_rs3] <;>
    exact Fin.ext hop.symm

/-- A legal word is the encoding of the command it spells. -/
theorem encode_of_decode (w : CommandWord) (i : Instr) (h : decode w = .ok i) : encode i = w := by
  obtain ⟨row, hrow, hcheck, rfl⟩ := (decode_eq_ok_iff w i).mp h
  rw [encode, encodeFields_build (fieldsOf w) row hrow hcheck, assemble_fieldsOf]

end Sys2Proof.Proofs

/-! ### How a command ends, as a function of its sources (10_state.md R20)

`exec_ends` says that every command concludes with some result. `resultOf` names that result as a function of the
register contents alone, and `exec_eq_conclude` ties it to `exec`. -/

namespace Sys2Proof.Proofs

open Sys2Proof.Machine Sys2Proof.Laws

/-- The value or the exception with which a command ends when register `r` holds `x r`. -/
def resultOf (x : Reg → Word) : Instr → Except Exn Word
  | .add _ a b c => deliver (signedOf (x a) + signedOf (x b)) c
  | .sub _ a b c => deliver (signedOf (x a) - signedOf (x b)) c
  | .mul _ a b c => deliver (signedOf (x a) * signedOf (x b)) c
  | .div _ a b c => divideTruncated (signedOf (x a)) (signedOf (x b)) c
  | .abs _ a c => deliver ((signedOf (x a)).natAbs : Int) c
  | .neg _ a c => deliver (-signedOf (x a)) c
  | .ucmp _ a b => .ok (compareUnsigned (unsignedOf (x a)) (unsignedOf (x b)))
  | .ult _ a b => .ok (truthWord (decide (unsignedOf (x a) < unsignedOf (x b))))
  | .ugt _ a b => .ok (truthWord (decide (unsignedOf (x a) > unsignedOf (x b))))
  | .ule _ a b => .ok (truthWord (decide (unsignedOf (x a) ≤ unsignedOf (x b))))
  | .udiv _ a b => divideUnsigned (unsignedOf (x a)) (unsignedOf (x b))
  | .mullo _ a b => .ok (wrap64 ((unsignedOf (x a) * unsignedOf (x b) : Nat) : Int))
  | .mulhiu _ a b => .ok (wrap64 ((unsignedOf (x a) * unsignedOf (x b) / 2 ^ 64 : Nat) : Int))
  | .mulhis _ a b => .ok (wrap64 (signedOf (x a) * signedOf (x b) / 2 ^ 64))
  | .divwq _ a b d c => wideQuotient (wideOf (x a) (x b)) (unsignedOf (x d)) c
  | .divwr _ a b d => wideRemainder (wideOf (x a) (x b)) (unsignedOf (x d))
  | .ldsf _ sc => .ok (wrap64 (scaleFactor sc : Nat))
  | .rinc _ a b d rm => roundingIncrement rm (x a) (x b) (x d)
  | .rcls _ a b => .ok (partWord (classify (unsignedOf (x a)) (unsignedOf (x b))))
  | .rcls2 _ a b => .ok (partWord (classifyPow2 66 (unsignedOf (x a)) (unsignedOf (x b))))
  | .rclsw _ a b d => .ok (partWord (classifyPow2 130 (wideOf (x a) (x b)) (unsignedOf (x d))))
  | .rminv _ rm => .ok (modeWord (invertMode rm))
  | .divs _ a b sc rm c => divideScaled (signedOf (x a)) (signedOf (x b)) sc rm c
  | .muls _ a b sc rm c => multiplyScaled (signedOf (x a)) (signedOf (x b)) sc rm c
  | .sqrs _ a sc rm c => multiplyScaled (signedOf (x a)) (signedOf (x a)) sc rm c
  | .sqrts _ a sc rm => squareRootScaled (signedOf (x a)) sc rm
  | .shl _ a b rm c => scale2 (signedOf (x a)) (signedOf (x b)) rm c
  | .shr _ a b rm c => scale2 (signedOf (x a)) (-signedOf (x b)) rm c
  | .mulp10 _ a b rm c => scale10 (signedOf (x a)) (signedOf (x b)) rm c
  | .divp10 _ a b rm c => scale10 (signedOf (x a)) (-signedOf (x b)) rm c
  | .adds _ a b sc sc2 rm c => addScaled (signedOf (x a)) (signedOf (x b)) sc sc2 rm c
  | .subs _ a b sc sc2 rm c => addScaled (signedOf (x a)) (-signedOf (x b)) sc sc2 rm c

/-- Performing a command concludes with its result, for its destination and on its own word. -/
theorem exec_eq_conclude (i : Instr) (s : State) :
    exec i s = .next (s.conclude (encode i) (destOf i) (resultOf s.reg i)) := by
  cases i <;> rfl

/-- The result reads no register but the named sources. -/
theorem resultOf_congr (i : Instr) (x y : Reg → Word) (h : ∀ r ∈ sourcesOf i, x r = y r) :
    resultOf x i = resultOf y i := by
  cases i <;> simp only [sourcesOf, List.forall_mem_cons] at h <;> simp only [resultOf, h]

/-- Settles O17: both states conclude with the result computed from the registers of the first. -/
theorem resultDependsOnlyOnNamedSources : Obligations.ResultDependsOnlyOnNamedSources := by
  intro i s₁ s₂ h
  refine ⟨resultOf s₁.reg i, exec_eq_conclude i s₁, ?_⟩
  rw [resultOf_congr i s₁.reg s₂.reg h]
  exact exec_eq_conclude i s₂

end Sys2Proof.Proofs

/-! ### Which exceptions a result can be (60_exceptions.md R192)

One lemma per shared operation of the commands' meanings, then the row of R192 of each command. -/

namespace Sys2Proof.Proofs

open Sys2Proof.Machine Sys2Proof.Laws

/-- If the result is an exception, it is one of the list. -/
def RaisesWithin {α : Type} (exns : List Exn) (result : Except Exn α) : Prop :=
  ∀ e, result = .error e → e ∈ exns

@[simp] theorem raisesWithin_ok {α : Type} (exns : List Exn) (v : α) : RaisesWithin exns (.ok v) := nofun

@[simp] theorem raisesWithin_error {α : Type} (exns : List Exn) (e : Exn) :
    RaisesWithin (α := α) exns (.error e) ↔ e ∈ exns := by
  simp [RaisesWithin]

theorem RaisesWithin.mono {α : Type} {exns more : List Exn} {result : Except Exn α}
    (h : RaisesWithin exns result) (hsub : exns ⊆ more) : RaisesWithin more result :=
  fun e he => hsub (h e he)

/-- A guard in front of a result adds the exception of the guard (R194). -/
theorem raisesWithin_guard {α : Type} (p : Prop) [Decidable p] (e : Exn) {exns : List Exn} {result : Except Exn α}
    (h : RaisesWithin exns result) : RaisesWithin (e :: exns) (if p then .error e else result) := by
  split
  · simp
  · exact h.mono (List.subset_cons_self e exns)

theorem raisesWithin_deliver (v : Int) (c : OverflowMode) : RaisesWithin (overflowIf c) (deliver v c) := by
  intro e he
  obtain ⟨rfl, rfl, -⟩ := (deliver_error_iff v c e).mp he
  simp [overflowIf]

theorem raisesWithin_increment (rm : RoundingMode) (sign : Sign) (t : Int) (part : TruncatedPart) :
    RaisesWithin (roundingIf rm) (increment rm sign t part) := by
  intro e he
  obtain ⟨rfl, rfl, -⟩ := (increment_error_iff rm sign t part e).mp he
  simp [roundingIf]

theorem raisesWithin_addIncrement (rm : RoundingMode) (sign : Sign) (t : Int) (part : TruncatedPart) :
    RaisesWithin (roundingIf rm) (addIncrement rm sign t part) := by
  intro e he
  obtain ⟨rfl, rfl, -⟩ := (addIncrement_error_iff rm sign t part e).mp he
  simp [roundingIf]

/-- Rounding can raise first, then delivery (R85). -/
theorem raisesWithin_deliverRounded {exns : List Exn} {v : Except Exn Int} (c : OverflowMode)
    (h : RaisesWithin exns v) : RaisesWithin (exns ++ overflowIf c) (deliverRounded v c) := by
  cases v with
  | ok v => exact (raisesWithin_deliver v c).mono (List.subset_append_right exns _)
  | error e => exact (raisesWithin_error _ e).mpr (List.mem_append_left _ (h e rfl))

theorem raisesWithin_roundThenDeliver (rm : RoundingMode) (n d : Int) (c : OverflowMode) :
    RaisesWithin (roundingIf rm ++ overflowIf c) (roundThenDeliver rm n d c) :=
  raisesWithin_deliverRounded c (raisesWithin_addIncrement rm _ _ _)

/-- A result that is delivered without rounding in one case and rounded in the other (R165, R175, R178). -/
theorem raisesWithin_deliver_or_round (p : Prop) [Decidable p] (v n d : Int) (rm : RoundingMode) (c : OverflowMode) :
    RaisesWithin (roundingIf rm ++ overflowIf c) (if p then deliver v c else roundThenDeliver rm n d c) := by
  split
  · exact (raisesWithin_deliver v c).mono (List.subset_append_right _ _)
  · exact raisesWithin_roundThenDeliver rm n d c

theorem raisesWithin_scale2 (u n : Int) (rm : RoundingMode) (c : OverflowMode) :
    RaisesWithin (roundingIf rm ++ overflowIf c) (scale2 u n rm c) :=
  raisesWithin_deliver_or_round _ _ _ _ rm c

theorem raisesWithin_scale10 (u n : Int) (rm : RoundingMode) (c : OverflowMode) :
    RaisesWithin (roundingIf rm ++ overflowIf c) (scale10 u n rm c) :=
  raisesWithin_deliver_or_round _ _ _ _ rm c

theorem raisesWithin_addScaled (a b : Int) (sc sc2 : Nat) (rm : RoundingMode) (c : OverflowMode) :
    RaisesWithin (roundingIf rm ++ overflowIf c) (addScaled a b sc sc2 rm c) :=
  raisesWithin_deliver_or_round _ _ _ _ rm c

theorem raisesWithin_multiplyScaled (a b : Int) (sc : Nat) (rm : RoundingMode) (c : OverflowMode) :
    RaisesWithin (roundingIf rm ++ overflowIf c) (multiplyScaled a b sc rm c) :=
  raisesWithin_roundThenDeliver rm _ _ c

theorem raisesWithin_divideScaled (a b : Int) (sc : Nat) (rm : RoundingMode) (c : OverflowMode) :
    RaisesWithin (.divByZero :: roundingIf rm ++ overflowIf c) (divideScaled a b sc rm c) :=
  raisesWithin_guard _ _ (raisesWithin_roundThenDeliver rm _ _ c)

/-- Truncation is DOWN, which never raises ROUNDING_NECESSARY. -/
theorem raisesWithin_divideTruncated (a b : Int) (c : OverflowMode) :
    RaisesWithin (.divByZero :: overflowIf c) (divideTruncated a b c) :=
  raisesWithin_guard _ _ (raisesWithin_roundThenDeliver .down _ _ c)

theorem raisesWithin_divideUnsigned (a b : Nat) : RaisesWithin [.divByZero] (divideUnsigned a b) :=
  raisesWithin_guard _ _ (raisesWithin_ok _ _)

theorem raisesWithin_wideRemainder (n d : Nat) : RaisesWithin [.divByZero] (wideRemainder n d) :=
  raisesWithin_guard _ _ (raisesWithin_ok _ _)

theorem raisesWithin_wideQuotient (n d : Nat) (c : OverflowMode) :
    RaisesWithin (.divByZero :: overflowIf c) (wideQuotient n d c) := by
  refine raisesWithin_guard _ _ ?_
  cases c with
  | checked => exact raisesWithin_guard _ _ (raisesWithin_ok [] _)
  | unchecked => simp

theorem raisesWithin_squareRootScaled (a : Int) (sc : Nat) (rm : RoundingMode) :
    RaisesWithin (.invalidDomain :: roundingIf rm) (squareRootScaled a sc rm) := by
  refine raisesWithin_guard _ _ fun e he => ?_
  split at he
  split at he
  · cases he
  · next hround =>
    cases he
    exact raisesWithin_addIncrement rm .positive _ _ e hround

theorem raisesWithin_roundingIncrement (rm : RoundingMode) (sign t part : Word) :
    RaisesWithin (.invalidDomain :: roundingIf rm) (roundingIncrement rm sign t part) := by
  intro e he
  unfold roundingIncrement at he
  split at he
  · cases he
    exact List.mem_cons_self
  · next p _ =>
    split at he
    · cases he
    · next hincrement =>
      cases he
      exact List.mem_cons_of_mem _ (raisesWithin_increment rm (signOf sign) (signedOf t) p e hincrement)

/-- R192: a command raises only what its row lists. -/
theorem raisesWithin_resultOf (i : Instr) (x : Reg → Word) : RaisesWithin (exceptionsOf i) (resultOf x i) := by
  cases i with
  | add | sub | mul | abs | neg => exact raisesWithin_deliver _ _
  | div => exact raisesWithin_divideTruncated _ _ _
  | udiv => exact raisesWithin_divideUnsigned _ _
  | divwq => exact raisesWithin_wideQuotient _ _ _
  | divwr => exact raisesWithin_wideRemainder _ _
  | rinc => exact raisesWithin_roundingIncrement _ _ _ _
  | divs => exact raisesWithin_divideScaled _ _ _ _ _
  | muls | sqrs => exact raisesWithin_multiplyScaled _ _ _ _ _
  | sqrts _ a sc rm => exact raisesWithin_squareRootScaled (signedOf (x a)) sc rm
  | shl | shr => exact raisesWithin_scale2 _ _ _ _
  | mulp10 | divp10 => exact raisesWithin_scale10 _ _ _ _
  | adds | subs => exact raisesWithin_addScaled _ _ _ _ _ _
  | ucmp | ult | ugt | ule | mullo | mulhiu | mulhis | ldsf | rcls | rcls2 | rclsw | rminv =>
    exact raisesWithin_ok _ _

/-- No command raises ILLEGAL_COMMAND: only words that spell none do (R192). -/
theorem mayRaise_illegalCommand (i : Instr) : mayRaise i .illegalCommand = false := by
  have overflow (c) : Exn.illegalCommand ∉ overflowIf c := by cases c <;> simp [overflowIf]
  have rounding (rm) : Exn.illegalCommand ∉ roundingIf rm := by cases rm <;> simp [roundingIf]
  cases i <;> simp [mayRaise, exceptionsOf, overflow, rounding]

end Sys2Proof.Proofs

/-! ### What a host operation can do (20_memory.md R43)

The two ends of CMD, and what each operation does to the status registers. -/

namespace Sys2Proof.Proofs

open Sys2Proof.Machine Sys2Proof.Laws

/-- The exceptions issuing a word can raise (R64, R192): those of its command's row, or ILLEGAL_COMMAND for a word that
spells no command. -/
def WordMayRaise (w : CommandWord) (e : Exn) : Prop :=
  (∃ i, decode w = .ok i ∧ mayRaise i e = true) ∨ (∃ why, decode w = .error why) ∧ e = .illegalCommand

/-- CMD either completes the command its word spells, or raises an exception that word can raise. -/
theorem issueCommand_cases (w : CommandWord) (s t : State) (h : issueCommand w s = .next t) :
    (∃ i v, decode w = .ok i ∧ t = s.complete (destOf i) v) ∨ ∃ e, WordMayRaise w e ∧ t = s.raise e w := by
  cases hw : decode w with
  | error why =>
    rw [issueCommand_of_error w why s hw, Host.Outcome.next.injEq] at h
    exact .inr ⟨.illegalCommand, .inr ⟨⟨why, hw⟩, rfl⟩, h.symm⟩
  | ok i =>
    rw [issueCommand_of_ok w i s hw, exec_eq_conclude, encode_of_decode w i hw, Host.Outcome.next.injEq] at h
    cases hr : resultOf s.reg i with
    | ok v => exact .inl ⟨i, v, rfl, by rw [← h, hr, conclude_ok]⟩
    | error e =>
      have listed : mayRaise i e = true := List.contains_iff_mem.mpr (raisesWithin_resultOf i s.reg e hr)
      exact .inr ⟨e, .inl ⟨i, hw, listed⟩, by rw [← h, hr, conclude_error]⟩

/-- What a host operation does to the status registers, from `s` to `t`. -/
inductive StatusEffect (s t : State) : HostOp → Prop where
  /-- WR, RD, RDS, and CMD when the command completes -/
  | kept (op : HostOp) (hflags : t.flags = s.flags) (hcause : t.cause = s.cause) (hecmd : t.ecmd = s.ecmd) :
    StatusEffect s t op
  | cleared (m : Word) (hflags : t.flags = clearFlags s.flags m) (hcause : t.cause = s.cause)
    (hecmd : t.ecmd = s.ecmd) : StatusEffect s t (.clrf m)
  | reset (hflags : t.flags = 0) (hcause : t.cause = 0) (hecmd : t.ecmd = 0) : StatusEffect s t .reset
  | raised (w : CommandWord) (e : Exn) (hword : WordMayRaise w e) (hreply : t.reply = .response (exnCode e))
    (hflags : t.flags = raiseFlag s.flags e) (hcause : t.cause = exnCode e) (hecmd : t.ecmd = w) :
    StatusEffect s t (.cmd w)

theorem perform_statusEffect (op : HostOp) (s t : State) (h : perform op s = .next t) : StatusEffect s t op := by
  cases op with
  | cmd w =>
    obtain ⟨i, v, -, rfl⟩ | ⟨e, hword, rfl⟩ := issueCommand_cases w s t h
    · exact .kept _ rfl rfl rfl
    · exact .raised w e hword rfl rfl rfl rfl
  | wr | rd | rds =>
    obtain rfl := Host.Outcome.next.inj h
    exact .kept _ rfl rfl rfl
  | clrf m =>
    obtain rfl := Host.Outcome.next.inj h
    exact .cleared m rfl rfl rfl
  | reset =>
    obtain rfl := Host.Outcome.next.inj h
    exact .reset rfl rfl rfl

/-- Taking the operation off the host's sequence touches no status register. -/
theorem step_statusEffect (s t : State) (op : HostOp) (rest : List HostOp) (hp : s.pending = op :: rest)
    (h : step s = .next t) : StatusEffect s t op := by
  rw [step_perform s op rest hp] at h
  cases perform_statusEffect op _ t h with
  | kept _ hflags hcause hecmd => exact .kept op hflags hcause hecmd
  | cleared m hflags hcause hecmd => exact .cleared m hflags hcause hecmd
  | reset hflags hcause hecmd => exact .reset hflags hcause hecmd
  | raised w e hword hreply hflags hcause hecmd => exact .raised w e hword hreply hflags hcause hecmd

/-- Settles O10: the step performs `hostReset`. -/
theorem resetOperationClearsStatus : Obligations.ResetOperationClearsStatus := by
  intro s rest hp
  exact ⟨_, step_perform s .reset rest hp, hostReset_flags _, hostReset_cause _, hostReset_ecmd _, hostReset_pending _⟩

/-- Settles O11, by the fields of the reset state. -/
theorem resetStateHasClearStatus : Obligations.ResetStateHasClearStatus := ⟨reset_flags, reset_cause, reset_ecmd⟩

end Sys2Proof.Proofs

/-! ### The status registers stay consistent (10_state.md R23 to R25) -/

namespace Sys2Proof.Proofs

open Sys2Proof.Machine Sys2Proof.Laws

/-- With the code of `e` in CAUSE, consistent means that the word in ECMD can raise `e`. -/
theorem statusConsistent_of_code (s : State) (e : Exn) (hcode : exnOfCode s.cause = some e) :
    statusConsistent s = true ↔ WordMayRaise s.ecmd e := by
  cases hword : decode s.ecmd with
  | ok i => cases e <;> simp [statusConsistent, WordMayRaise, hcode, hword, mayRaise_illegalCommand]
  | error why => cases e <;> simp [statusConsistent, WordMayRaise, hcode, hword]

/-- `statusConsistent` spelled out: everything is clear, or CAUSE is the code of an exception ECMD can raise. -/
theorem statusConsistent_iff (s : State) :
    statusConsistent s = true ↔
      (s.cause = 0 ∧ s.flags = 0 ∧ s.ecmd = 0) ∨ ∃ e, s.cause = exnCode e ∧ WordMayRaise s.ecmd e := by
  cases hcode : exnOfCode s.cause with
  | none =>
    have noCode (e) : s.cause ≠ exnCode e := fun h => by simp [h, exnOfCode_exnCode] at hcode
    simp [statusConsistent, hcode, noCode, and_assoc]
  | some e =>
    have hcause : exnCode e = s.cause := exnCode_of_exnOfCode s.cause e hcode
    rw [statusConsistent_of_code s e hcode]
    constructor
    · exact fun hword => .inr ⟨e, hcause.symm, hword⟩
    · rintro (⟨hzero, -⟩ | ⟨f, hf, hword⟩)
      · exact absurd (hcause.trans hzero) (exnCode_ne_zero e)
      · exact exnCode_injective e f (hcause.trans hf) ▸ hword

/-- Settles O13: at reset everything is clear. -/
theorem statusConsistentAtReset : Obligations.StatusConsistentAtReset :=
  (statusConsistent_iff _).mpr (.inl ⟨reset_cause, reset_flags, reset_ecmd⟩)

/-- Settles O14: a raise leaves a code and a word that match, RESET clears all, CLRF keeps FLAGS clear where it was clear,
and nothing else touches the status registers. -/
theorem stepKeepsStatusConsistent : Obligations.StepKeepsStatusConsistent := by
  intro s t hs h
  rw [statusConsistent_iff] at hs ⊢
  cases hp : s.pending with
  | nil =>
    rw [step_idle s hp, Host.Outcome.next.injEq] at h
    exact h ▸ hs
  | cons op rest =>
    cases step_statusEffect s t op rest hp h with
    | kept _ hflags hcause hecmd => rwa [hflags, hcause, hecmd]
    | cleared m hflags hcause hecmd =>
      rw [hflags, hcause, hecmd]
      refine hs.imp_left fun ⟨hzero, hclear, hword⟩ => ⟨hzero, ?_, hword⟩
      rw [hclear]
      exact BitVec.zero_and
    | reset hflags hcause hecmd => exact .inl ⟨hcause, hflags, hecmd⟩
    | raised w e hword _ _ hcause hecmd => exact .inr ⟨e, hcause, hecmd ▸ hword⟩

end Sys2Proof.Proofs

/-! ### What changes the state (10_state.md R21, R23 to R25) -/

namespace Sys2Proof.Proofs

open Sys2Proof.Machine Sys2Proof.Laws

/-- The bits CLRF leaves are among those set before. -/
theorem clearFlags_and_not (flags : BitVec 5) (m : Word) : clearFlags flags m &&& ~~~flags = 0 := by
  rw [clearFlags, BitVec.and_comm flags, BitVec.and_assoc, BitVec.and_not_self]
  exact BitVec.and_zero

/-- A raise loses no bit. -/
theorem and_not_raiseFlag (flags : BitVec 5) (e : Exn) : flags &&& ~~~raiseFlag flags e = 0 := by
  rw [raiseFlag, BitVec.not_or, ← BitVec.and_assoc, BitVec.and_not_self]
  exact BitVec.zero_and

/-- A raise gains no bit but its own. -/
theorem raiseFlag_and_not (flags : BitVec 5) (e : Exn) (h : raiseFlag flags e &&& ~~~flags ≠ 0) :
    raiseFlag flags e &&& ~~~flags = flagBit e := by
  revert flags
  cases e <;> decide

/-- Settles O19: the four effects of an operation on the status registers, clause by clause. -/
theorem statusChangesOnlyByRaiseClearReset : Obligations.StatusChangesOnlyByRaiseClearReset := by
  intro s t op rest hp h
  cases step_statusEffect s t op rest hp h with
  | kept _ hflags hcause hecmd => simp [hflags, hcause, hecmd]
  | cleared m hflags hcause hecmd => simp [hflags, hcause, hecmd, clearFlags_and_not]
  | reset hflags hcause hecmd => simp [hflags]
  | raised w e _ hreply hflags hcause hecmd =>
    refine ⟨fun gained => ⟨w, exnCode e, rfl, exnCode_ne_zero e, hreply, ?_⟩, fun lost => ?_, fun _ => .inr ⟨w, rfl, ?_⟩⟩
    · rw [hflags] at gained ⊢
      exact raiseFlag_and_not s.flags e gained
    · exact absurd (hflags ▸ and_not_raiseFlag s.flags e) lost
    · rw [hcause]
      exact ⟨exnCode_ne_zero e, hreply, hecmd⟩

/-- Settles O20: of the operations that are neither RESET nor WR, only a completed command writes a register, its
destination. -/
theorem registersChangeOnlyByWriteCompletionReset : Obligations.RegistersChangeOnlyByWriteCompletionReset := by
  intro s t op rest r hp h hchanged
  rw [step_perform s op rest hp] at h
  cases op with
  | reset => exact .inl rfl
  | wr q w =>
    obtain rfl := Host.Outcome.next.inj h
    rw [hostWrite_reg] at hchanged ⊢
    split at hchanged
    · next heq => exact .inr (.inl ⟨w, heq ▸ rfl, if_pos heq⟩)
    · exact absurd rfl hchanged
  | rd | rds | clrf =>
    obtain rfl := Host.Outcome.next.inj h
    exact absurd rfl hchanged
  | cmd w =>
    obtain ⟨i, v, hw, rfl⟩ | ⟨e, -, rfl⟩ := issueCommand_cases w _ t h
    · have hdest : destOf i = r := by
        by_contra hne
        exact hchanged (by rw [complete_reg, if_neg hne]; rfl)
      exact .inr (.inr ⟨w, i, rfl, hw, hdest, rfl⟩)
    · exact absurd rfl hchanged

end Sys2Proof.Proofs

/-! ### The table of scales (10_state.md R27) -/

namespace Sys2Proof.Proofs

open Sys2Proof.Machine

/-- Settles O41: the columns evaluate to the table of the spec. -/
theorem scaleTableHasTheNineteenRows : Obligations.ScaleTableHasTheNineteenRows := rfl

end Sys2Proof.Proofs

/-! ### The ends of a command (20_memory.md R45, 60_exceptions.md R190, R193, R197) -/

namespace Sys2Proof.Proofs

open Sys2Proof.Machine Sys2Proof.Laws

/-- Every exception a command can raise has a code from 1 to 4: code 5 is that of a word that spells no command. -/
theorem exnCode_of_mayRaise (i : Instr) (e : Exn) (h : mayRaise i e = true) :
    1 ≤ (exnCode e).toNat ∧ (exnCode e).toNat ≤ 4 := by
  cases e with
  | illegalCommand => exact absurd ((mayRaise_illegalCommand i).symm.trans h) Bool.false_ne_true
  | overflow | divByZero | roundingNecessary | invalidDomain => decide

/-- A command completes with a value for its destination, or raises one of its row's exceptions on its own word. -/
theorem exec_cases (i : Instr) (s : State) :
    (∃ v, exec i s = .next (s.complete (destOf i) v))
      ∨ ∃ e, mayRaise i e = true ∧ exec i s = .next (s.raise e (encode i)) := by
  rw [exec_eq_conclude]
  cases hr : resultOf s.reg i with
  | ok v => exact .inl ⟨v, rfl⟩
  | error e => exact .inr ⟨e, List.contains_iff_mem.mpr (raisesWithin_resultOf i s.reg e hr), rfl⟩

/-- Completing leaves every register but the destination. -/
theorem complete_reg_of_ne (s : State) (rd r : Reg) (v : Word) (h : r ≠ rd) : (s.complete rd v).reg r = s.reg r := by
  rw [complete_reg, if_neg h.symm]

/-- Settles O15: the two ends of a command, each with the fields it leaves and the fields it sets. -/
theorem commandCompletesOrRaises : Obligations.CommandCompletesOrRaises := by
  intro i s
  obtain ⟨v, hexec⟩ | ⟨e, hlisted, hexec⟩ := exec_cases i s
  · exact ⟨_, hexec, complete_pending .., complete_resets .., .inl ⟨complete_reply .., complete_flags ..,
      complete_cause .., complete_ecmd .., fun r => complete_reg_of_ne s (destOf i) r v⟩⟩
  · obtain ⟨hlow, hhigh⟩ := exnCode_of_mayRaise i e hlisted
    have hflags : raiseFlag s.flags e = s.flags ||| (1#5 <<< ((exnCode e).toNat - 1)) := by
      rw [raiseFlag, flagBit_eq]
    exact ⟨_, hexec, raise_pending .., raise_resets .., .inr ⟨exnCode e, hlow, hhigh, raise_reply .., raise_regs ..,
      hflags, raise_cause .., raise_ecmd ..⟩⟩

end Sys2Proof.Proofs

/-! ### What each row of the host's operations does in one step (20_memory.md R43) -/

namespace Sys2Proof.Proofs

open Sys2Proof.Machine Sys2Proof.Laws

/-- Settles O6: the step performs CMD, and CMD of a legal word performs its command. -/
theorem stepRunsTheDecodedCommand : Obligations.StepRunsTheDecodedCommand := by
  intro s w rest i hp hw
  calc step s = issueCommand w { s with pending := rest } := step_perform s (.cmd w) rest hp
    _ = exec i { s with pending := rest } := issueCommand_of_ok w i _ hw

/-- Settles O8: the step performs `hostWrite` or `hostRead`, with the operation taken off. -/
theorem hostWritesAndReadsRegisters : Obligations.HostWritesAndReadsRegisters := fun s r w rest =>
  ⟨step_perform s (.wr r w) rest, step_perform s (.rd r) rest⟩

/-- CLRF reads bits 4 to 0 of its mask and no other (R43). -/
theorem clearFlags_eq_extractLsb' (flags : BitVec 5) (m : Word) :
    clearFlags flags m = flags &&& ~~~(m.extractLsb' 0 5) := by
  rw [clearFlags, BitVec.setWidth_eq_extractLsb' (by decide)]

/-- Settles O9: the step performs `hostReadStatus` of each number, or `hostClearFlags`. -/
theorem hostReadsAndClearsStatus : Obligations.HostReadsAndClearsStatus := by
  intro s m rest
  refine ⟨step_perform s (.rds 0) rest, step_perform s (.rds 1) rest, step_perform s (.rds 2) rest,
    step_perform s (.rds 3) rest, fun hp => ?_⟩
  rw [step_perform s (.clrf m) rest hp, ← clearFlags_eq_extractLsb']
  rfl

end Sys2Proof.Proofs

/-! ### The decoder and the encoder are each other's inverse (30_encoding.md R63, R65)

`encode_of_decode` says that a legal word is the encoding of the command it spells; here stands the other half, with the
well-formedness of every decoded command. -/

namespace Sys2Proof.Proofs

open Sys2Proof.Machine Sys2Proof.Laws

/-- Every well-formed command's fields are legal and spell it, constructor by constructor. -/
theorem encodedFieldsLegal : ∀ i : Instr, EncodedFieldsLegal.Statement i
  | .add .. => EncodedFieldsLegal.add _ _ _ _
  | .sub .. => EncodedFieldsLegal.sub _ _ _ _
  | .mul .. => EncodedFieldsLegal.mul _ _ _ _
  | .div .. => EncodedFieldsLegal.div _ _ _ _
  | .abs .. => EncodedFieldsLegal.abs _ _ _
  | .neg .. => EncodedFieldsLegal.neg _ _ _
  | .ucmp .. => EncodedFieldsLegal.ucmp _ _ _
  | .ult .. => EncodedFieldsLegal.ult _ _ _
  | .ugt .. => EncodedFieldsLegal.ugt _ _ _
  | .ule .. => EncodedFieldsLegal.ule _ _ _
  | .udiv .. => EncodedFieldsLegal.udiv _ _ _
  | .mullo .. => EncodedFieldsLegal.mullo _ _ _
  | .mulhiu .. => EncodedFieldsLegal.mulhiu _ _ _
  | .mulhis .. => EncodedFieldsLegal.mulhis _ _ _
  | .divwq .. => EncodedFieldsLegal.divwq _ _ _ _ _
  | .divwr .. => EncodedFieldsLegal.divwr _ _ _ _
  | .ldsf .. => EncodedFieldsLegal.ldsf _ _
  | .rinc .. => EncodedFieldsLegal.rinc _ _ _ _ _
  | .rcls .. => EncodedFieldsLegal.rcls _ _ _
  | .rcls2 .. => EncodedFieldsLegal.rcls2 _ _ _
  | .rclsw .. => EncodedFieldsLegal.rclsw _ _ _ _
  | .rminv .. => EncodedFieldsLegal.rminv _ _
  | .divs .. => EncodedFieldsLegal.divs _ _ _ _ _ _
  | .muls .. => EncodedFieldsLegal.muls _ _ _ _ _ _
  | .sqrs .. => EncodedFieldsLegal.sqrs _ _ _ _ _
  | .sqrts .. => EncodedFieldsLegal.sqrts _ _ _ _
  | .shl .. => EncodedFieldsLegal.shl _ _ _ _ _
  | .shr .. => EncodedFieldsLegal.shr _ _ _ _ _
  | .mulp10 .. => EncodedFieldsLegal.mulp10 _ _ _ _ _
  | .divp10 .. => EncodedFieldsLegal.divp10 _ _ _ _ _
  | .adds .. => EncodedFieldsLegal.adds _ _ _ _ _ _ _
  | .subs .. => EncodedFieldsLegal.subs _ _ _ _ _ _ _

/-- Settles O1: the word has the command's fields, which are a legal row of the opcode map and spell the command. -/
theorem decodeOfEncodeIsTheCommand : Obligations.DecodeOfEncodeIsTheCommand := by
  intro i hwf
  rw [decode_eq_ok_iff, fieldsOf_encode]
  exact encodedFieldsLegal i hwf

/-- The checks of R65 leave only legal scales in the fields a row reads as scales. -/
theorem wf_build (f : Fields) (row : OpcodeRow) (hrow : opcodeRow f.op = some row) (hcheck : rowCheck row f = none) :
    (row.build f).wf = true := by
  obtain ⟨hformat, -, hscale, -, -⟩ := (rowCheck_eq_none_iff row f).mp hcheck
  unfold opcodeRow at hrow
  split at hrow <;> cases hrow <;> simp_all [Instr.wf, scaleOk, formatCheck]

theorem wf_of_decode (w : CommandWord) (i : Instr) (h : decode w = .ok i) : i.wf = true := by
  obtain ⟨row, hrow, hcheck, rfl⟩ := (decode_eq_ok_iff w i).mp h
  exact wf_build (fieldsOf w) row hrow hcheck

/-- Settles O2: a legal word is the encoding of its command, so the command determines the word. -/
theorem encodeOfDecodedWordIsTheWord : Obligations.EncodeOfDecodedWordIsTheWord := by
  refine ⟨fun w i h => ⟨wf_of_decode w i h, encode_of_decode w i h⟩, fun w₁ w₂ i h₁ h₂ => ?_⟩
  calc w₁ = encode i := (encode_of_decode w₁ i h₁).symm
    _ = w₂ := encode_of_decode w₂ i h₂

/-- A word decodes to a well-formed command when it is that command's encoding. -/
theorem decode_of_encode_eq (w : CommandWord) (i : Instr) (hwf : i.wf = true) (hw : encode i = w) : decode w = .ok i :=
  hw ▸ decodeOfEncodeIsTheCommand i hwf

/-- Settles O5: each word of R66 is the encoding of the command beside it. -/
theorem specWordsDecodeToTheirCommands : Obligations.SpecWordsDecodeToTheirCommands :=
  ⟨decode_of_encode_eq _ _ rfl rfl, decode_of_encode_eq _ _ rfl rfl, decode_of_encode_eq _ _ rfl rfl,
    decode_of_encode_eq _ _ rfl rfl, decode_of_encode_eq _ _ rfl rfl, decode_of_encode_eq _ _ rfl rfl,
    decode_of_encode_eq _ _ rfl rfl, decode_of_encode_eq _ _ rfl rfl⟩

end Sys2Proof.Proofs

/-! ### Illegal words (30_encoding.md R64, 60_exceptions.md R193) -/

namespace Sys2Proof.Proofs

open Sys2Proof.Machine Sys2Proof.Laws

/-- Settles O7: the step performs CMD, and CMD of an illegal word raises ILLEGAL_COMMAND on that word. -/
theorem stepRaisesOnAnIllegalWord : Obligations.StepRaisesOnAnIllegalWord := by
  intro s w rest e hp hw
  calc step s = issueCommand w { s with pending := rest } := step_perform s (.cmd w) rest hp
    _ = .next (State.raise { s with pending := rest } .illegalCommand w) := issueCommand_of_error w e _ hw

/-- The opcode of a word is its bits 31:26 (R56). -/
theorem fieldsOf_op_val (w : CommandWord) : (fieldsOf w).op.val = w.toNat / 2 ^ 26 := by
  have := w.isLt
  simp only [fieldsOf, Fin.val_ofNat]
  omega

/-- The checks on a word of an assigned opcode name the classes (b) to (d) of R64, never (a). -/
theorem rowCheck_ne_unassignedOpcode (row : OpcodeRow) (f : Fields) : rowCheck row f ≠ some .unassignedOpcode := by
  have hformat : formatCheck row.format f ≠ some .unassignedOpcode := by
    cases row.format <;> simp only [formatCheck] <;> split <;> simp
  unfold rowCheck
  cases h : formatCheck row.format f with
  | some e => exact fun he => hformat (h.trans he)
  | none => dsimp only; split_ifs <;> simp

/-- Class (a) of R64 is the words whose opcode has no row. -/
theorem decode_eq_unassignedOpcode_iff (w : CommandWord) :
    decode w = .error .unassignedOpcode ↔ opcodeRow (fieldsOf w).op = none := by
  unfold decode
  cases opcodeRow (fieldsOf w).op with
  | none => simp
  | some row =>
    have hne := rowCheck_ne_unassignedOpcode row (fieldsOf w)
    cases h : rowCheck row (fieldsOf w) <;> simp_all

/-- The opcodes without a row, over all 64. -/
theorem opcodeRow_eq_none_iff (op : Fin 64) :
    opcodeRow op = none ↔
      (op.val = 0x00 ∨ op.val = 0x07 ∨ (0x0D ≤ op.val ∧ op.val ≤ 0x0F) ∨ (0x16 ≤ op.val ∧ op.val ≤ 0x17)
        ∨ (0x1D ≤ op.val ∧ op.val ≤ 0x1F) ∨ 0x2A ≤ op.val) := by
  rw [← Option.isNone_iff_eq_none]
  revert op
  decide

/-- Settles O4: the opcodes without a row, read from bits 31:26. -/
theorem unassignedOpcodesAreIllegal : Obligations.UnassignedOpcodesAreIllegal := by
  intro w
  rw [decode_eq_unassignedOpcode_iff, opcodeRow_eq_none_iff, fieldsOf_op_val]

end Sys2Proof.Proofs

/-! ### The match and mask columns of R62

A mask is read field by field: the opcode's bits, and in every other field the bits that must be zero. That reading is
`zeroMask`, and `Describes` ties a row of the match and mask table to its row of the opcode map. -/

namespace Sys2Proof.Proofs

open Sys2Proof.Machine Sys2Proof.Laws

/-- The conjunction of two words' fields. -/
def fieldsAnd (f g : Fields) : Fields :=
  { op := f.op &&& g.op, rd := f.rd &&& g.rd, rs1 := f.rs1 &&& g.rs1, rs2 := f.rs2 &&& g.rs2,
    t := f.t &&& g.t, s := f.s &&& g.s, rm := f.rm &&& g.rm, c := f.c &&& g.c }

/-- A field of `k` bits from bit `n` up of a conjunction is the conjunction of the fields. -/
theorem field_and (k n a b : Nat) :
    Fin.ofNat (2 ^ k) ((a &&& b) / 2 ^ n) = Fin.ofNat (2 ^ k) (a / 2 ^ n) &&& Fin.ofNat (2 ^ k) (b / 2 ^ n) := by
  apply Fin.ext
  rw [Fin.and_val]
  simp only [Fin.val_ofNat, Nat.and_div_two_pow, Nat.and_mod_two_pow]

theorem fieldsOf_and (w v : CommandWord) : fieldsOf (w &&& v) = fieldsAnd (fieldsOf w) (fieldsOf v) := by
  simp only [fieldsOf, fieldsAnd, BitVec.toNat_and, Fields.mk.injEq]
  exact ⟨field_and 6 26 _ _, field_and 4 22 _ _, field_and 4 18 _ _, field_and 4 14 _ _, field_and 5 9 _ _,
    field_and 5 4 _ _, field_and 3 1 _ _, by simpa using field_and 1 0 w.toNat v.toNat⟩

/-- Masking a word and comparing it is masking and comparing its fields. -/
theorem and_assemble_eq_iff (w : CommandWord) (mask pattern : Fields) :
    w &&& assemble mask = assemble pattern ↔ fieldsAnd (fieldsOf w) mask = pattern := by
  constructor
  · intro h
    rw [← fieldsOf_assemble pattern, ← h, fieldsOf_and, fieldsOf_assemble]
  · intro h
    rw [← h, ← assemble_fieldsOf (w &&& assemble mask), fieldsOf_and, fieldsOf_assemble]

/-- The extra constraints of R62 read the fields `s` and `t`. -/
theorem shiftRight_and_scale (w : CommandWord) (n : Nat) :
    ((w >>> n) &&& 0x1F#32).toNat = (Fin.ofNat 32 (w.toNat / 2 ^ n)).val := by
  rw [BitVec.toNat_and, BitVec.toNat_ushiftRight, Nat.shiftRight_eq_div_pow]
  exact Nat.and_two_pow_sub_one_eq_mod (w.toNat / 2 ^ n) 5

theorem accepts_iff (m : MatchRow) (w : CommandWord) :
    m.accepts w = true ↔
      w &&& m.mask = m.pattern ∧ (m.needsScale = true → (fieldsOf w).s.val ≤ 18)
        ∧ (m.needsSecondScale = true → (fieldsOf w).t.val ≤ 18) := by
  simp only [MatchRow.accepts, shiftRight_and_scale, fieldsOf, Bool.and_eq_true, Bool.or_eq_true, decide_eq_true_eq,
    Bool.not_eq_true', and_assoc]
  cases m.needsScale <;> cases m.needsSecondScale <;> simp

/-- The bits of a word of an opcode's row that its mask has (R62): the opcode's, and every bit that must be zero, which
the format and the unused qualifiers say (R57). -/
def zeroMask (row : OpcodeRow) : Fields :=
  { op := 63
    rs1 := match row.format with | .r1 => 15 | _ => 0
    rs2 := match row.format with | .r1 | .r2 => 15 | _ => 0
    t := match row.format with | .r1 | .r2 | .r3 => 31 | .r4 => 16 | .d => 0
    s := if row.usesS then 0 else 31
    rm := if row.usesRm then 0 else 7
    c := if row.usesC then 0 else 1 }

/-- A mask of ones keeps a field of each width of R56. -/
theorem and_ones :
    (∀ x : Fin 64, x &&& 63 = x) ∧ (∀ x : Fin 32, x &&& 31 = x) ∧ (∀ x : Fin 16, x &&& 15 = x)
      ∧ (∀ x : Fin 8, x &&& 7 = x) ∧ ∀ x : Fin 2, x &&& 1 = x := by decide

theorem and_zeros {n : Nat} [NeZero n] (x : Fin n) : x &&& 0 = 0 := by
  apply Fin.ext
  rw [Fin.and_val, Fin.val_zero, Nat.and_zero]

/-- The mask of a qualifier: ones where the row does not use it. -/
theorem and_mask_eq_zero_iff {n : Nat} [NeZero n] (used : Bool) (x ones : Fin n) (hones : x &&& ones = x) :
    x &&& (if used then 0 else ones) = 0 ↔ (used = false → x = 0) := by
  cases used <;> simp [hones, and_zeros]

/-- Format R4 asks that bit 4 of `t` be zero (R57). -/
theorem and_highBit32 (x : Fin 32) : x &&& 16 = 0 ↔ x.val ≤ 15 := by revert x; decide

/-- The format's check of R65 passes exactly when the bits the format leaves unused are zero, and in format D the second
scale is legal. -/
theorem formatCheck_eq_none_iff (row : OpcodeRow) (f : Fields) :
    formatCheck row.format f = none ↔
      f.rs1 &&& (zeroMask row).rs1 = 0 ∧ f.rs2 &&& (zeroMask row).rs2 = 0 ∧ f.t &&& (zeroMask row).t = 0
        ∧ (row.format = .d → f.t.val ≤ 18) := by
  cases h : row.format <;>
    simp [formatCheck, zeroMask, h, and_ones, and_zeros, and_highBit32]

/-- The masked fields are those of the bare opcode exactly when the word has that opcode and every masked bit is zero. -/
theorem fieldsAnd_zeroMask_eq_iff (row : OpcodeRow) (op : Fin 64) (f : Fields) :
    fieldsAnd f (zeroMask row) = { op := op } ↔
      f.op = op ∧ (f.rs1 &&& (zeroMask row).rs1 = 0 ∧ f.rs2 &&& (zeroMask row).rs2 = 0 ∧ f.t &&& (zeroMask row).t = 0)
        ∧ (row.usesS = false → f.s = 0) ∧ (row.usesRm = false → f.rm = 0) ∧ (row.usesC = false → f.c = 0) := by
  simp [fieldsAnd, zeroMask, and_mask_eq_zero_iff, and_ones, and_zeros, and_assoc]

/-- A row of the match and mask table says what a row of the opcode map says. -/
structure Describes (m : MatchRow) (op : Fin 64) (row : OpcodeRow) : Prop where
  assigned : opcodeRow op = some row
  mask : m.mask = assemble (zeroMask row)
  pattern : m.pattern = assemble { op := op }
  scale : m.needsScale = row.usesS
  secondScale : m.needsSecondScale = decide (row.format = .d)
  mnemonic : ∀ f, (row.build f).mnemonic = m.mnemonic

/-- Such a row accepts the words of its opcode that pass the checks of R65. -/
theorem Describes.accepts_iff_rowCheck {m : MatchRow} {op : Fin 64} {row : OpcodeRow} (h : Describes m op row)
    (w : CommandWord) :
    m.accepts w = true ↔ (fieldsOf w).op = op ∧ rowCheck row (fieldsOf w) = none := by
  rw [accepts_iff, h.mask, h.pattern, and_assemble_eq_iff, fieldsAnd_zeroMask_eq_iff, rowCheck_eq_none_iff,
    formatCheck_eq_none_iff, h.scale, h.secondScale, decide_eq_true_eq]
  tauto

/-- A word the row accepts spells a command of its mnemonic. -/
theorem Describes.decode_of_accepts {m : MatchRow} {op : Fin 64} {row : OpcodeRow} (h : Describes m op row)
    {w : CommandWord} (haccepts : m.accepts w = true) : ∃ i, decode w = .ok i ∧ i.mnemonic = m.mnemonic := by
  obtain ⟨hop, hcheck⟩ := (h.accepts_iff_rowCheck w).mp haccepts
  exact ⟨_, (decode_eq_ok_iff w _).mpr ⟨row, hop ▸ h.assigned, hcheck, rfl⟩, h.mnemonic _⟩

/-- A legal word of the row's opcode is accepted by the row and spells a command of its mnemonic. -/
theorem Describes.accepts_of_decode {m : MatchRow} {op : Fin 64} {row : OpcodeRow} (h : Describes m op row)
    {w : CommandWord} {i : Instr} (hop : (fieldsOf w).op = op) (hdecode : decode w = .ok i) :
    m.accepts w = true ∧ i.mnemonic = m.mnemonic := by
  obtain ⟨row', hrow, hcheck, rfl⟩ := (decode_eq_ok_iff w i).mp hdecode
  obtain rfl : row = row' := Option.some.inj (h.assigned.symm.trans (hop ▸ hrow))
  exact ⟨(h.accepts_iff_rowCheck w).mpr ⟨hop, hcheck⟩, h.mnemonic _⟩

/-- The 32 rows, one by one: each describes the row of its own opcode. -/
theorem exists_describes (m : MatchRow) (hm : m ∈ matchTable) : ∃ row, Describes m (fieldsOf m.pattern).op row := by
  fin_cases hm <;> exact ⟨_, rfl, rfl, rfl, rfl, rfl, fun _ => rfl⟩

/-- Every assigned opcode is that of a row of the table. -/
theorem exists_matchRow_of_opcode (op : Fin 64) (h : (opcodeRow op).isSome = true) :
    ∃ m ∈ matchTable, (fieldsOf m.pattern).op = op := by
  revert op
  decide

/-- No two rows have one mnemonic. -/
theorem mnemonics_nodup : (matchTable.map MatchRow.mnemonic).Nodup := by decide

/-- A legal word is accepted by the row of its opcode, whose mnemonic is that of the command. -/
theorem exists_accepts_of_decode (w : CommandWord) (i : Instr) (h : decode w = .ok i) :
    ∃ m ∈ matchTable, m.accepts w = true ∧ i.mnemonic = m.mnemonic := by
  obtain ⟨row, hrow, -, -⟩ := (decode_eq_ok_iff w i).mp h
  obtain ⟨m, hm, hop⟩ := exists_matchRow_of_opcode (fieldsOf w).op (Option.isSome_of_eq_some hrow)
  obtain ⟨_, hdescribes⟩ := exists_describes m hm
  exact ⟨m, hm, hdescribes.accepts_of_decode hop.symm h⟩

/-- Settles O3: each row accepts words of its mnemonic alone, and each legal word is accepted by a row, the only one of
its command's mnemonic. -/
theorem legalWordsAreTheTableRows : Obligations.LegalWordsAreTheTableRows := by
  intro w
  have legal (m) (hm : m ∈ matchTable) (h : m.accepts w = true) : ∃ i, decode w = .ok i ∧ i.mnemonic = m.mnemonic :=
    (exists_describes m hm).elim fun _ hdescribes => hdescribes.decode_of_accepts h
  refine ⟨⟨?_, ?_⟩, fun m hm => ⟨legal m hm, ?_⟩⟩
  · rintro ⟨i, hi⟩
    obtain ⟨m, hm, haccepts, -⟩ := exists_accepts_of_decode w i hi
    exact ⟨m, hm, haccepts⟩
  · rintro ⟨m, hm, haccepts⟩
    obtain ⟨i, hi, -⟩ := legal m hm haccepts
    exact ⟨i, hi⟩
  · rintro ⟨i, hi, hmnemonic⟩
    obtain ⟨m', hm', haccepts, hmnemonic'⟩ := exists_accepts_of_decode w i hi
    have hsame : m' = m :=
      List.inj_on_of_nodup_map mnemonics_nodup hm' hm (hmnemonic'.symm.trans hmnemonic)
    exact hsame ▸ haccepts

end Sys2Proof.Proofs

/-! ### Settling a command by its result

The statements of 40_rounding.md and 60_exceptions.md speak of `exec`; these lemmas reduce them to `resultOf`. -/

namespace Sys2Proof.Proofs

open Sys2Proof.Machine Sys2Proof.Laws

/-- A command whose result is a value completes with it. -/
theorem completesWith_of_resultOf {i : Instr} {s : State} {v : Word} (h : resultOf s.reg i = .ok v) :
    CompletesWith i (destOf i) v s :=
  completesWith_of i (destOf i) v s (h ▸ exec_eq_conclude i s)

/-- A command whose result is an exception raises its code. -/
theorem raisesCode_of_resultOf {i : Instr} {s : State} {e : Exn} (h : resultOf s.reg i = .error e) :
    RaisesCode i (exnCode e) (flagBit e) s :=
  raisesCode_of i (destOf i) e s (h ▸ exec_eq_conclude i s)

end Sys2Proof.Proofs

/-! ### The checked and the unchecked form of a command (40_rounding.md R85, 60_exceptions.md R199)

One lemma per shared operation whose meaning takes the qualifier `c`, then the commands by constructor. -/

namespace Sys2Proof.Proofs

open Sys2Proof.Machine Sys2Proof.Laws

/-- The results of the checked and of the unchecked form: the same, and not OVERFLOW, or OVERFLOW against a value. -/
inductive AgreeButOverflow : Except Exn Word → Except Exn Word → Prop where
  | same (result : Except Exn Word) (h : result ≠ .error .overflow) : AgreeButOverflow result result
  | wraps (v : Word) : AgreeButOverflow (.error .overflow) (.ok v)

/-- A result that cannot be OVERFLOW agrees with itself. -/
theorem AgreeButOverflow.of_raisesWithin {exns : List Exn} {result : Except Exn Word} (h : RaisesWithin exns result)
    (hmem : .overflow ∉ exns) : AgreeButOverflow result result :=
  .same result fun he => hmem (h _ he)

/-- A guard with an exception other than OVERFLOW in front of both forms (R194). -/
theorem AgreeButOverflow.guard {rc ru : Except Exn Word} (p : Prop) [Decidable p] {e : Exn} (he : e ≠ .overflow)
    (h : AgreeButOverflow rc ru) : AgreeButOverflow (if p then .error e else rc) (if p then .error e else ru) := by
  split
  · exact .same _ fun h => he (Except.error.inj h)
  · exact h

theorem agreeButOverflow_deliver (v : Int) : AgreeButOverflow (deliver v .checked) (deliver v .unchecked) := by
  rw [deliver_unchecked]
  cases hv : inRange v with
  | true => rw [deliver_of_inRange v _ hv]; exact .same _ nofun
  | false => rw [(deliver_error_iff v .checked .overflow).mpr ⟨rfl, rfl, hv⟩]; exact .wraps _

/-- Rounding comes before delivery and does not read `c`; it raises ROUNDING_NECESSARY only. -/
theorem agreeButOverflow_roundThenDeliver (rm : RoundingMode) (n d : Int) :
    AgreeButOverflow (roundThenDeliver rm n d .checked) (roundThenDeliver rm n d .unchecked) := by
  unfold roundThenDeliver
  cases hround : roundQuotient rm n d with
  | ok v => exact agreeButOverflow_deliver v
  | error e =>
    obtain ⟨rfl, -, -⟩ := (addIncrement_error_iff rm _ _ _ e).mp hround
    exact .same _ nofun

theorem agreeButOverflow_deliver_or_round (p : Prop) [Decidable p] (v n d : Int) (rm : RoundingMode) :
    AgreeButOverflow (if p then deliver v .checked else roundThenDeliver rm n d .checked)
      (if p then deliver v .unchecked else roundThenDeliver rm n d .unchecked) := by
  split
  · exact agreeButOverflow_deliver v
  · exact agreeButOverflow_roundThenDeliver rm n d

theorem agreeButOverflow_wideQuotient (n d : Nat) :
    AgreeButOverflow (wideQuotient n d .checked) (wideQuotient n d .unchecked) := by
  refine .guard _ nofun ?_
  rw [if_neg (fun h => nomatch h.2 : ¬(2 ^ 64 ≤ n / d ∧ OverflowMode.unchecked = .checked))]
  split
  · exact .wraps _
  · exact .same _ nofun

/-- R85: the qualifier `c` decides between OVERFLOW and a value, and nothing else. -/
theorem agreeButOverflow_resultOf (i : Instr) (x : Reg → Word) :
    AgreeButOverflow (resultOf x (withOverflowMode .checked i)) (resultOf x (withOverflowMode .unchecked i)) := by
  cases i with
  | add | sub | mul | abs | neg => exact agreeButOverflow_deliver _
  | div | divs => exact .guard _ nofun (agreeButOverflow_roundThenDeliver _ _ _)
  | muls | sqrs => exact agreeButOverflow_roundThenDeliver _ _ _
  | shl | shr | mulp10 | divp10 | adds | subs => exact agreeButOverflow_deliver_or_round _ _ _ _ _
  | divwq => exact agreeButOverflow_wideQuotient _ _
  | udiv => exact .of_raisesWithin (raisesWithin_divideUnsigned _ _) (by decide)
  | divwr => exact .of_raisesWithin (raisesWithin_wideRemainder _ _) (by decide)
  | rinc _ _ _ _ rm =>
    exact .of_raisesWithin (raisesWithin_roundingIncrement rm _ _ _) (by cases rm <;> decide)
  | sqrts _ a sc rm =>
    exact .of_raisesWithin (raisesWithin_squareRootScaled (signedOf (x a)) sc rm) (by cases rm <;> decide)
  | ucmp | ult | ugt | ule | mullo | mulhiu | mulhis | ldsf | rcls | rcls2 | rclsw | rminv => exact .same _ nofun

@[simp] theorem destOf_withOverflowMode (c : OverflowMode) (i : Instr) : destOf (withOverflowMode c i) = destOf i := by
  cases i <;> rfl

/-- The reply does not depend on the command word. -/
theorem conclude_reply_congr (s : State) (w w' : CommandWord) (rd : Reg) (result : Except Exn Word) :
    (s.conclude w rd result).reply = (s.conclude w' rd result).reply := by
  cases result <;> rfl

/-- Settles O18, by the two ways the results of the two forms agree: where the results are the same, the word put into
ECMD is all that can tell the forms apart. -/
theorem checkedAndUncheckedAgree : Obligations.CheckedAndUncheckedAgree := by
  intro i s tc tu hc hu
  rw [exec_eq_conclude, destOf_withOverflowMode, Host.Outcome.next.injEq] at hc hu
  have hagree := agreeButOverflow_resultOf i s.reg
  generalize resultOf s.reg (withOverflowMode .checked i) = rc at hc hagree
  generalize resultOf s.reg (withOverflowMode .unchecked i) = ru at hu hagree
  subst hc hu
  cases hagree with
  | same _ hne =>
    have noOverflow (w) : (s.conclude w (destOf i) rc).reply ≠ .response 1 :=
      fun h => hne ((conclude_reply_code s w (destOf i) rc .overflow).mp h)
    refine ⟨fun h => ?_, fun h => absurd h (noOverflow _), fun k _ _ => ?_, noOverflow _⟩
    · obtain ⟨v, rfl⟩ := (conclude_reply s _ _ rc).mp h
      rw [conclude_ok, conclude_ok]
    · rw [conclude_reply_congr s _ _ _ rc]
  | wraps v =>
    have hraise (w) : (s.raise .overflow w).reply = .response 1 := rfl
    simp only [conclude_ok, conclude_error, hraise, complete_reply, Reply.response.injEq]
    exact ⟨nofun, fun _ => ⟨trivial, complete_flags .., complete_cause .., complete_ecmd ..⟩,
      fun k h0 h1 => ⟨fun h => absurd h.symm h1, fun h => absurd h.symm h0⟩, nofun⟩

end Sys2Proof.Proofs

/-! ### The rounding-decision commands on their words (40_rounding.md R82, R87 to R92) -/

namespace Sys2Proof.Proofs

open Sys2Proof.Machine Sys2Proof.Laws

/-- Settles O24, by the two words' values: `2 * r` against `d` is `r` against `d / 2`, where an odd `d` has no half. -/
theorem halvedClassificationIsClassify : Obligations.HalvedClassificationIsClassify := by
  intro r d
  have hzero : r = 0 ↔ r.toNat = 0 := BitVec.toNat_inj.symm
  have habove : d >>> 1 < r ↔ d.toNat / 2 < r.toNat := by
    rw [BitVec.lt_def, BitVec.toNat_ushiftRight, Nat.shiftRight_eq_div_pow, pow_one]
  have heven : d &&& 1 = 0 ↔ d.toNat % 2 = 0 := by
    rw [← BitVec.toNat_inj, BitVec.toNat_and]
    exact Nat.and_one_is_mod d.toNat ▸ Iff.rfl
  have hhalf : d >>> 1 = r ↔ d.toNat / 2 = r.toNat := by
    rw [← BitVec.toNat_inj, BitVec.toNat_ushiftRight, Nat.shiftRight_eq_div_pow, pow_one]
  unfold classifyHalved classify
  simp only [hzero, habove, heven, hhalf]
  split_ifs <;> first | rfl | omega

/-- The pattern of a classified part, by the chain of R82 and the codes of R60. -/
theorem partWord_classify (r d : Nat) :
    partWord (classify r d) = if r = 0 then 0 else if 2 * r < d then 1 else if 2 * r = d then 2 else 3 := by
  unfold classify
  split_ifs <;> rfl

/-- Settles O26: the zero pattern is the word of value 0. -/
theorem rclsWritesThePartCode : Obligations.RclsWritesThePartCode := by
  intro rd rs1 rs2 s
  have hzero : s.reg rs1 = 0 ↔ (s.reg rs1).toNat = 0 := BitVec.toNat_inj.symm
  simp only [hzero]
  exact completesWith_of_resultOf (congrArg Except.ok (partWord_classify _ _))

/-- Past the limit of R89 and R90, twice the remainder stays below the power of two. -/
theorem classifyPow2_eq_classify (limit r n : Nat) (hr : 2 * r < 2 ^ limit) :
    classifyPow2 limit r n = classify r (2 ^ n) := by
  unfold classifyPow2
  rcases le_total n limit with hn | hn
  · rw [min_eq_left hn]
  · have hpow : 2 ^ limit ≤ 2 ^ n := Nat.pow_le_pow_right two_pos hn
    rw [min_eq_right hn, classify, classify]
    simp only [hr, hr.trans_le hpow, if_true]

theorem wideOf_eq_toNat_append (hi lo : Word) : wideOf hi lo = (hi ++ lo).toNat := by
  rw [BitVec.toNat_append, ← Nat.shiftLeft_add_eq_or_of_lt lo.isLt, Nat.shiftLeft_eq]
  rfl

/-- Settles O27: the limits 66 and 130 lie past twice every 64-bit and every 128-bit remainder. -/
theorem powerOfTwoClassificationIsUnlimited : Obligations.PowerOfTwoClassificationIsUnlimited := by
  intro rd rs1 rs2 rs3 s
  have hnarrow := (s.reg rs1).isLt
  have hwide := (s.reg rs1 ++ s.reg rs2).isLt
  refine ⟨completesWith_of_resultOf (congrArg (fun p => Except.ok (partWord p)) ?_),
    completesWith_of_resultOf (congrArg (fun p => Except.ok (partWord p)) ?_)⟩
  · exact classifyPow2_eq_classify 66 _ _ (by unfold unsignedOf; omega)
  · rw [wideOf_eq_toNat_append]
    exact classifyPow2_eq_classify 130 _ _ (by omega)

/-- Settles O28, mode by mode. -/
theorem rminvExchangesCeilingAndFloor : Obligations.RminvExchangesCeilingAndFloor := fun _ _ =>
  ⟨completesWith_of_resultOf rfl, completesWith_of_resultOf rfl, completesWith_of_resultOf rfl,
    completesWith_of_resultOf rfl, completesWith_of_resultOf rfl, completesWith_of_resultOf rfl,
    completesWith_of_resultOf rfl, completesWith_of_resultOf rfl⟩

end Sys2Proof.Proofs

/-! ### The rows of the increment table (40_rounding.md R83)

A zero part is `increment_zero`; these are the rows on every other part. -/

namespace Sys2Proof.Proofs

open Sys2Proof.Machine Sys2Proof.Laws

section Rows

variable (σ : Sign) (t : Int) {part : TruncatedPart}

theorem increment_up (h : part ≠ .zero) : increment .up σ t part = .ok (signValue σ) := by
  cases part <;> trivial

theorem increment_down (part : TruncatedPart) : increment .down σ t part = .ok 0 := by
  cases part <;> rfl

theorem increment_ceiling (h : part ≠ .zero) :
    increment .ceiling σ t part = .ok (if σ = .positive then 1 else 0) := by
  cases part <;> cases σ <;> trivial

theorem increment_floor (h : part ≠ .zero) :
    increment .floor σ t part = .ok (if σ = .positive then 0 else -1) := by
  cases part <;> cases σ <;> trivial

theorem increment_halfUp (h : part ≠ .zero) :
    increment .halfUp σ t part = .ok (if part = .lessThanHalfNonzero then 0 else signValue σ) := by
  cases part <;> trivial

theorem increment_halfDown (part : TruncatedPart) :
    increment .halfDown σ t part = .ok (if part = .greaterThanHalf then signValue σ else 0) := by
  cases part <;> rfl

theorem increment_halfEven (part : TruncatedPart) :
    increment .halfEven σ t part =
      .ok (if part = .greaterThanHalf ∨ (part = .equalToHalf ∧ t % 2 = 1) then signValue σ else 0) := by
  cases part <;> simp [increment]

end Rows

end Sys2Proof.Proofs

/-! ### RINC (40_rounding.md R87) -/

namespace Sys2Proof.Proofs

open Sys2Proof.Machine Sys2Proof.Laws

/-- Bit 63 is the sign (R87). -/
theorem signOf_eq (w : Word) : signOf w = if w.getLsbD 63 then .negative else .positive := by
  have hsign : signedOf w < 0 ↔ w.getLsbD 63 = true := by
    rw [← BitVec.msb_eq_getLsbD_last, signedOf, BitVec.toInt_neg_iff, BitVec.msb_eq_decide]
    simp only [decide_eq_true_eq]
    omega
  simp only [signOf, hsign]

/-- Bit 0 is the parity (R87): `2^64` is even, so the signed and the unsigned reading have the same one. -/
theorem signedOf_odd_iff (w : Word) : signedOf w % 2 = 1 ↔ w.getLsbD 0 = true := by
  rw [BitVec.getLsbD, Nat.testBit_zero, decide_eq_true_iff, signedOf, BitVec.toInt_eq_toNat_cond]
  split <;> omega

/-- The word of a sign's unit, by bit 63. -/
theorem wrap64_signValue_signOf (w : Word) :
    wrap64 (signValue (signOf w)) = if w.getLsbD 63 then -1#64 else 1#64 := by
  rw [signOf_eq]
  split <;> rfl

theorem wrap64_signValue_eq_one_iff (σ : Sign) : wrap64 (signValue σ) = 1 ↔ σ = .positive := by
  cases σ <;> decide

theorem partCode_injective : Function.Injective partCode := by
  intro p q h
  cases p <;> cases q <;> trivial

section OperandPatterns

variable (rm : RoundingMode) (sign t word : Word)

/-- On a part's code RINC answers the increment on that part. -/
theorem roundingIncrement_of_partCode (part : TruncatedPart) (h : word.toNat = partCode part) :
    roundingIncrement rm sign t word = (increment rm (signOf sign) (signedOf t) part).map wrap64 := by
  have hpart : partOfCode word.toNat = some part := by rw [h]; cases part <;> rfl
  simp only [roundingIncrement, unsignedOf, hpart]
  cases increment rm (signOf sign) (signedOf t) part <;> rfl

/-- A code above 3 names no part, whatever the mode (R87, R194). -/
theorem roundingIncrement_of_three_lt (h : 3 < word.toNat) :
    roundingIncrement rm sign t word = .error .invalidDomain := by
  have hnone : partOfCode word.toNat = none := by
    unfold partOfCode
    split <;> first | rfl | omega
  simp only [roundingIncrement, unsignedOf, hnone]

end OperandPatterns

/-- The codes 1 to 3 are those of the parts that are not zero (R60). -/
theorem exists_partCode_eq (p : Nat) (h1 : 1 ≤ p) (h3 : p ≤ 3) :
    ∃ part, part ≠ .zero ∧ p = partCode part := by
  interval_cases p
  · exact ⟨.lessThanHalfNonzero, nofun, rfl⟩
  · exact ⟨.equalToHalf, nofun, rfl⟩
  · exact ⟨.greaterThanHalf, nofun, rfl⟩

/-- Settles O25: the rows of R83, each for the three parts that are not zero. -/
theorem rincFollowsTheIncrementTable : Obligations.RincFollowsTheIncrementTable := by
  intro rd rs1 rs2 rs3 rm s p sign hp hsign
  refine ⟨fun h0 => ?_, fun h1 h3 => ?_, fun h3 => ?_⟩
  · refine completesWith_of_resultOf ?_
    rw [resultOf, roundingIncrement_of_partCode rm _ _ _ .zero (hp.trans h0), increment_zero]
    rfl
  · obtain ⟨part, hne, rfl⟩ := exists_partCode_eq p h1 h3
    have row (rm) : resultOf s.reg (.rinc rd rs1 rs2 rs3 rm) = _ := roundingIncrement_of_partCode rm _ _ _ part hp
    obtain rfl : sign = wrap64 (signValue (signOf (s.reg rs1))) := hsign.trans (wrap64_signValue_signOf _).symm
    have hless : partCode part = 1 ↔ part = .lessThanHalfNonzero := partCode_injective.eq_iff' rfl
    have htie : partCode part = 2 ↔ part = .equalToHalf := partCode_injective.eq_iff' rfl
    have hgreater : partCode part = 3 ↔ part = .greaterThanHalf := partCode_injective.eq_iff' rfl
    simp only [wrap64_signValue_eq_one_iff, hless, htie, hgreater, ← signedOf_odd_iff]
    cases rm with
    | unnecessary =>
      exact raisesCode_of_resultOf (by rw [row, (increment_error_iff ..).mpr ⟨rfl, rfl, hne⟩]; rfl)
    | up => exact completesWith_of_resultOf (by rw [row, increment_up _ _ hne]; rfl)
    | down => exact completesWith_of_resultOf (by rw [row, increment_down]; rfl)
    | ceiling => exact completesWith_of_resultOf (by rw [row, increment_ceiling _ _ hne]; split <;> rfl)
    | floor => exact completesWith_of_resultOf (by rw [row, increment_floor _ _ hne]; split <;> rfl)
    | halfUp => exact completesWith_of_resultOf (by rw [row, increment_halfUp _ _ hne]; split <;> rfl)
    | halfDown => exact completesWith_of_resultOf (by rw [row, increment_halfDown]; split <;> rfl)
    | halfEven => exact completesWith_of_resultOf (by rw [row, increment_halfEven]; split <;> rfl)
  · exact raisesCode_of_resultOf (i := .rinc rd rs1 rs2 rs3 rm) (roundingIncrement_of_three_lt rm _ _ _ (hp ▸ h3))

end Sys2Proof.Proofs

/-! ### Round as truncation and increment (40_rounding.md R84)

`roundQuotient_eq` reads Round on the truncated quotient `n.tdiv d`; the sign of the discarded part is that of
`n * d`. -/

namespace Sys2Proof.Proofs

open Sys2Proof.Machine Sys2Proof.Laws

theorem signValue_signOfInt (m : Int) : signValue (signOfInt m) = if m < 0 then -1 else 1 := by
  unfold signOfInt
  split <;> rfl

/-- The quotient is negative exactly when the product is. -/
theorem signOfInt_mul (n d : Int) (hd : d ≠ 0) : signOfInt (if d < 0 then -n else n) = signOfInt (n * d) := by
  have hneg : (if d < 0 then -n else n) < 0 ↔ n * d < 0 := by
    rcases lt_or_gt_of_ne hd with hd | hd
    · rw [if_pos hd, neg_lt_zero, mul_neg_iff]
      omega
    · rw [if_neg hd.not_gt, mul_neg_iff]
      omega
  simp only [signOfInt, hneg]

/-- The sign of a quantity that is not zero. -/
theorem signValue_signOfInt_of_ne (m : Int) (hm : m ≠ 0) : signValue (signOfInt m) = m.sign := by
  rw [signValue_signOfInt]
  split
  · next h => exact (Int.sign_eq_neg_one_of_neg h).symm
  · next h => exact (Int.sign_eq_one_of_pos (by omega)).symm

/-- The truncated quotient from the magnitudes and the sign. -/
theorem signValue_mul_natAbs_div (n d : Int) (hd : d ≠ 0) :
    signValue (signOfInt (n * d)) * ((n.natAbs / d.natAbs : Nat) : Int) = n.tdiv d := by
  have hmagnitude : (n.tdiv d).natAbs = n.natAbs / d.natAbs := Int.natAbs_tdiv n d
  by_cases hlt : n.natAbs < d.natAbs
  · rw [Nat.div_eq_of_lt hlt] at hmagnitude ⊢
    rw [Int.natAbs_eq_zero.mp hmagnitude, Int.natCast_zero, mul_zero]
  · have hn : n ≠ 0 := by omega
    have hsign : (n.tdiv d).sign = n.sign * d.sign := by rw [Int.sign_tdiv, if_neg hlt]
    rw [signValue_signOfInt_of_ne _ (mul_ne_zero hn hd), Int.sign_mul, ← hsign, ← hmagnitude, Int.sign_mul_natAbs]

/-- R84 on the truncated quotient: the magnitude of the quotient with its sign is `n.tdiv d`. -/
theorem roundQuotient_eq (rm : RoundingMode) (n d : Int) (hd : d ≠ 0) :
    roundQuotient rm n d =
      addIncrement rm (signOfInt (n * d)) (n.tdiv d) (classify (n.natAbs % d.natAbs) d.natAbs) := by
  rw [← signValue_mul_natAbs_div n d hd, ← signOfInt_mul n d hd]
  rfl

/-- The increment is what the result adds to the truncated value. -/
theorem addIncrement_ok_iff (rm : RoundingMode) (sign : Sign) (t : Int) (part : TruncatedPart) (v : Int) :
    addIncrement rm sign t part = .ok v ↔ increment rm sign t part = .ok (v - t) := by
  unfold addIncrement
  cases increment rm sign t part with
  | ok k =>
    simp only [Except.ok.injEq]
    omega
  | error e => simp only [reduceCtorEq]

/-- The discarded part is zero exactly when the division is exact. -/
theorem classify_mod_eq_zero_iff (n d : Int) : classify (n.natAbs % d.natAbs) d.natAbs = .zero ↔ d ∣ n := by
  rw [classify_eq_zero_iff, ← Nat.dvd_iff_mod_eq_zero, Int.natAbs_dvd_natAbs]

/-- R84: Round raises exactly under UNNECESSARY on an inexact quotient. -/
theorem roundQuotient_error_iff (rm : RoundingMode) (n d : Int) (e : Exn) :
    roundQuotient rm n d = .error e ↔ e = .roundingNecessary ∧ rm = .unnecessary ∧ ¬d ∣ n := by
  rw [← classify_mod_eq_zero_iff]
  exact addIncrement_error_iff ..

/-- Negating both parts changes nothing. -/
theorem roundQuotient_neg_neg (rm : RoundingMode) (n d : Int) (hd : d ≠ 0) :
    roundQuotient rm (-n) (-d) = roundQuotient rm n d := by
  simp only [roundQuotient_eq rm _ _ hd, roundQuotient_eq rm _ _ (neg_ne_zero.mpr hd), neg_mul_neg, Int.neg_tdiv,
    Int.tdiv_neg, neg_neg, Int.natAbs_neg]

end Sys2Proof.Proofs

/-! ### Rounding a negated quantity (40_rounding.md R91) -/

namespace Sys2Proof.Proofs

open Sys2Proof.Machine Sys2Proof.Laws

@[simp] theorem invertMode_invertMode (rm : RoundingMode) : invertMode (invertMode rm) = rm := by cases rm <;> rfl

/-- The sign of the negated quantity. -/
def oppositeSign : Sign → Sign
  | .negative => .positive
  | .positive => .negative

theorem signOfInt_neg (m : Int) (hm : m ≠ 0) : signOfInt (-m) = oppositeSign (signOfInt m) := by
  rcases lt_or_gt_of_ne hm with h | h
  · simp only [signOfInt, h, if_true, oppositeSign]
    exact if_neg (by omega)
  · simp only [signOfInt, h.not_gt, if_false, oppositeSign]
    exact if_pos (by omega)

/-- R91 on the increment table: CEILING and FLOOR are exchanged, the other rows are symmetric. -/
theorem increment_invertMode (rm : RoundingMode) (sign : Sign) (t : Int) (part : TruncatedPart) :
    increment (invertMode rm) (oppositeSign sign) (-t) part = (increment rm sign t part).map Neg.neg := by
  have hparity : -t % 2 = 1 ↔ t % 2 = 1 := by omega
  cases rm with
  | halfEven =>
    simp only [invertMode, increment_halfEven, hparity]
    cases sign <;> split <;> rfl
  | up | down | ceiling | floor | halfUp | halfDown | unnecessary => cases sign <;> cases part <;> rfl

/-- R91 on a truncated value. -/
theorem addIncrement_invertMode (rm : RoundingMode) (sign : Sign) (t : Int) (part : TruncatedPart) :
    addIncrement (invertMode rm) (oppositeSign sign) (-t) part = (addIncrement rm sign t part).map Neg.neg := by
  unfold addIncrement
  rw [increment_invertMode]
  cases increment rm sign t part with
  | ok k => exact congrArg Except.ok (neg_add t k).symm
  | error e => rfl

/-- R91 as one equation. -/
theorem roundQuotient_invertMode_neg (rm : RoundingMode) (n d : Int) (hd : d ≠ 0) :
    roundQuotient (invertMode rm) (-n) d = (roundQuotient rm n d).map Neg.neg := by
  rcases eq_or_ne n 0 with rfl | hn
  · simp only [roundQuotient_eq _ _ _ hd, addIncrement, neg_zero, Int.zero_tdiv, Int.natAbs_zero, Nat.zero_mod,
      (classify_eq_zero_iff 0 d.natAbs).mpr rfl, increment_zero]
    rfl
  · rw [roundQuotient_eq _ _ _ hd, roundQuotient_eq _ _ _ hd, neg_mul, signOfInt_neg _ (mul_ne_zero hn hd),
      Int.neg_tdiv, Int.natAbs_neg, addIncrement_invertMode]

/-- Settles O22, by the equation of R91 on a value and on an exception. -/
theorem roundOfTheNegatedQuantity : Obligations.RoundOfTheNegatedQuantity := by
  intro rm n d hd
  rw [roundQuotient_invertMode_neg rm n d hd]
  refine ⟨invertMode_invertMode rm, fun v => ?_, fun e => ?_⟩
  · cases roundQuotient rm n d <;> simp [Except.map]
  · cases roundQuotient rm n d <;> simp [Except.map]

end Sys2Proof.Proofs

/-! ### Three properties of a rounding (40_rounding.md R93) -/

namespace Sys2Proof.Proofs

open Sys2Proof.Machine Sys2Proof.Laws

/-- (a) An exact quotient is kept in every mode. -/
theorem roundQuotient_of_dvd (rm : RoundingMode) (n d : Int) (hd : d ≠ 0) (h : d ∣ n) :
    roundQuotient rm n d = .ok (n / d) := by
  rw [roundQuotient_eq rm n d hd, (classify_mod_eq_zero_iff n d).mpr h, addIncrement_ok_iff, increment_zero,
    Int.tdiv_eq_ediv_of_dvd h, sub_self]

theorem signValue_eq_or (sign : Sign) : signValue sign = -1 ∨ signValue sign = 1 := by cases sign <;> decide

theorem abs_signValue (sign : Sign) : |signValue sign| = 1 := by cases sign <;> rfl

/-- (b) On a tie HALF_EVEN moves an odd truncated value to an even one. -/
theorem even_of_halfEven_tie (sign : Sign) (t : Int) :
    ∃ v, addIncrement .halfEven sign t .equalToHalf = .ok v ∧ Even v := by
  by_cases hodd : t % 2 = 1
  · refine ⟨t + signValue sign, (addIncrement_ok_iff ..).mpr ?_, ?_⟩
    · simp [increment, hodd]
    · rw [Int.even_iff]
      have := signValue_eq_or sign
      omega
  · refine ⟨t, (addIncrement_ok_iff ..).mpr ?_, ?_⟩
    · simp [increment, hodd]
    · rw [Int.even_iff]
      omega

/-- A rounding of an inexact quotient is the truncated value or the next one away from zero. -/
theorem roundQuotient_sub_tdiv (rm : RoundingMode) (n d v : Int) (hd : d ≠ 0) (h : roundQuotient rm n d = .ok v) :
    v - n.tdiv d = 0 ∨ (¬d ∣ n ∧ v - n.tdiv d = signValue (signOfInt (n * d))) := by
  rw [roundQuotient_eq rm n d hd, addIncrement_ok_iff] at h
  by_cases hdvd : d ∣ n
  · rw [(classify_mod_eq_zero_iff n d).mpr hdvd, increment_zero, Except.ok.injEq] at h
    exact .inl h.symm
  · exact (increment_eq_or _ _ _ _ _ h).imp_right fun hk => ⟨hdvd, hk⟩

/-- The remainder is smaller than the divisor. -/
theorem abs_tmod_lt (n d : Int) (hd : d ≠ 0) : |n.tmod d| < |d| := by
  rw [Int.abs_eq_natAbs, Int.abs_eq_natAbs, Int.natAbs_tmod]
  exact_mod_cast Nat.mod_lt _ (Int.natAbs_pos.mpr hd)

/-- One unit of the quotient away from zero: the remainder has the sign of the dividend, so the unit passes the exact
value, and by less than the divisor. -/
theorem abs_signValue_mul_sub_tmod_lt (n d : Int) (hd : d ≠ 0) (h : ¬d ∣ n) :
    |signValue (signOfInt (n * d)) * d - n.tmod d| < |d| := by
  have hn : n ≠ 0 := fun h0 => h (h0 ▸ dvd_zero d)
  have hunit : signValue (signOfInt (n * d)) * d = n.sign * |d| := by
    rw [signValue_signOfInt_of_ne _ (mul_ne_zero hn hd), Int.sign_mul, mul_assoc, Int.sign_mul_self_eq_abs]
  have hrem : n.tmod d = n.sign * |n.tmod d| := by
    have hsign : (n.tmod d).sign = n.sign := by rw [Int.sign_tmod, if_neg h]
    rw [← hsign, Int.sign_mul_abs]
  have hpos : 0 < |n.tmod d| := abs_pos.mpr fun h0 => h (Int.dvd_of_tmod_eq_zero h0)
  have hlt : |n.tmod d| < |d| := abs_tmod_lt n d hd
  calc |signValue (signOfInt (n * d)) * d - n.tmod d|
      = |n.sign * (|d| - |n.tmod d|)| := by rw [hunit, mul_sub, ← hrem]
    _ = |d| - |n.tmod d| := by
      rw [abs_mul, Int.abs_sign_of_ne_zero hn, one_mul, abs_of_pos (sub_pos.mpr hlt)]
    _ < |d| := sub_lt_self _ hpos

/-- Settles O23: the truncated value is off by the remainder, and the increment moves it by nothing or by one unit. -/
theorem roundingKeepsItsThreeProperties : Obligations.RoundingKeepsItsThreeProperties := by
  intro rm n d hd
  refine ⟨roundQuotient_of_dvd rm n d hd, fun htie => ?_, fun v hv => ?_⟩
  · have hpart : classify (n.natAbs % d.natAbs) d.natAbs = .equalToHalf :=
      (classify_eq_half_iff ..).mpr ⟨by omega, htie⟩
    rw [roundQuotient_eq .halfEven n d hd, hpart]
    exact even_of_halfEven_tie _ _
  · have hsplit : v * d - n = (v - n.tdiv d) * d - n.tmod d := by
      have := Int.tmod_add_mul_tdiv n d
      linear_combination this
    rw [hsplit]
    obtain hk | ⟨hdvd, hk⟩ := roundQuotient_sub_tdiv rm n d v hd hv <;> rw [hk]
    · rw [zero_mul, zero_sub, abs_neg]
      exact ⟨by decide, abs_tmod_lt n d hd⟩
    · exact ⟨(abs_signValue _).le, abs_signValue_mul_sub_tmod_lt n d hd hdvd⟩

end Sys2Proof.Proofs

/-! ### The textbook roundings of a real number (40_rounding.md R81)

On a value that is not negative the magnitudes in the table of R81 disappear, and all modes but HALF_EVEN and
UNNECESSARY are a floor or a ceiling. Negating the value exchanges CEILING and FLOOR. -/

namespace Sys2Proof.Proofs

open Sys2Proof.Machine Sys2Proof.Laws

theorem isRoundingOf_ceiling_iff (q : ℝ) (v : ℤ) : IsRoundingOf .ceiling q v ↔ ⌈q⌉ = v := by
  rw [Int.ceil_eq_iff, sub_lt_iff_lt_add]
  exact and_comm

theorem isRoundingOf_floor_iff (q : ℝ) (v : ℤ) : IsRoundingOf .floor q v ↔ ⌊q⌋ = v := Int.floor_eq_iff.symm

/-- A rounding of the negated value by the inverted mode is the negated rounding (R91). -/
theorem isRoundingOf_invertMode_neg (rm : RoundingMode) (q : ℝ) (v : ℤ) :
    IsRoundingOf (invertMode rm) (-q) (-v) ↔ IsRoundingOf rm q v := by
  have hdist : -q - -(v : ℝ) = -(q - v) := by ring
  cases rm with
  | ceiling => rw [invertMode, isRoundingOf_floor_iff, isRoundingOf_ceiling_iff, Int.floor_neg, neg_inj]
  | floor => rw [invertMode, isRoundingOf_floor_iff, isRoundingOf_ceiling_iff, Int.ceil_neg, neg_inj]
  | up | down | halfUp | halfDown | halfEven | unnecessary =>
    simp only [invertMode, IsRoundingOf, Int.cast_neg, abs_neg, neg_mul_neg, hdist, even_neg, neg_inj]

section Nonneg

variable {q : ℝ} (hq : 0 ≤ q) (v : ℤ)

include hq

/-- An integer less than a unit below a value that is not negative is not negative. -/
theorem nonneg_of_lt_add_one (h : q < v + 1) : (0 : ℝ) ≤ v := by
  have hv : ((-1 : ℤ) : ℝ) < v := by push_cast; linarith
  exact Int.cast_nonneg (Int.lt_iff_add_one_le.mp (Int.cast_lt.mp hv))

/-- An integer of the value's sign, less than a unit above it in magnitude, is not negative. -/
theorem nonneg_of_abs_lt_add_one (hsign : 0 ≤ q * v) (h : |(v : ℝ)| < q + 1) : (0 : ℝ) ≤ v := by
  by_contra hneg
  have hzero : q = 0 := le_antisymm (nonpos_of_mul_nonneg_left hsign (not_le.mp hneg)) hq
  have hv : |v| < 1 := by rw [hzero, zero_add] at h; exact_mod_cast h
  exact hneg (by rw [Int.abs_lt_one_iff.mp hv, Int.cast_zero])

theorem isRoundingOf_up_iff : IsRoundingOf .up q v ↔ ⌈q⌉ = v := by
  rw [← isRoundingOf_ceiling_iff]
  simp only [IsRoundingOf, abs_of_nonneg hq]
  constructor
  · rintro ⟨hle, hlt, hsign⟩
    rw [abs_of_nonneg (nonneg_of_abs_lt_add_one hq v hsign hlt)] at hle hlt
    exact ⟨hle, hlt⟩
  · rintro ⟨hle, hlt⟩
    have hv := hq.trans hle
    rw [abs_of_nonneg hv]
    exact ⟨hle, hlt, mul_nonneg hq hv⟩

theorem isRoundingOf_down_iff : IsRoundingOf .down q v ↔ ⌊q⌋ = v := by
  rw [← isRoundingOf_floor_iff]
  simp only [IsRoundingOf, abs_of_nonneg hq]
  constructor
  · rintro ⟨hle, hlt, hsign⟩
    have hv := nonneg_of_abs_lt_add_one hq v hsign (hle.trans_lt (lt_add_one q))
    rw [abs_of_nonneg hv] at hle hlt
    exact ⟨hle, hlt⟩
  · rintro ⟨hle, hlt⟩
    have hv := nonneg_of_lt_add_one hq v hlt
    rw [abs_of_nonneg hv]
    exact ⟨hle, hlt, mul_nonneg hq hv⟩

/-- A tie goes up: half a unit above the result is excluded, half a unit below is not. -/
theorem isRoundingOf_halfUp_iff : IsRoundingOf .halfUp q v ↔ ⌊q + 1 / 2⌋ = v := by
  rw [Int.floor_eq_iff]
  simp only [IsRoundingOf, abs_of_nonneg hq]
  constructor
  · rintro ⟨hnear, htie⟩
    obtain ⟨hlow, hhigh⟩ := abs_le.mp hnear
    have hv := nonneg_of_lt_add_one hq v (by linarith)
    rw [abs_of_nonneg hv] at htie
    have hne : q - v ≠ 1 / 2 := fun h => by linarith [htie (by rw [h]; norm_num)]
    exact ⟨by linarith, by linarith [lt_of_le_of_ne hhigh hne]⟩
  · rintro ⟨hlow, hhigh⟩
    have hv := nonneg_of_lt_add_one hq v (by linarith)
    refine ⟨abs_le.mpr ⟨by linarith, by linarith⟩, fun htie => ?_⟩
    rw [abs_of_nonneg hv]
    obtain h | h := eq_or_eq_neg_of_abs_eq htie <;> linarith

/-- A tie goes down: half a unit below the result is excluded, half a unit above is not. -/
theorem isRoundingOf_halfDown_iff : IsRoundingOf .halfDown q v ↔ ⌈q - 1 / 2⌉ = v := by
  rw [Int.ceil_eq_iff]
  simp only [IsRoundingOf, abs_of_nonneg hq]
  constructor
  · rintro ⟨hnear, htie⟩
    obtain ⟨hlow, hhigh⟩ := abs_le.mp hnear
    have hv := nonneg_of_lt_add_one hq v (by linarith)
    rw [abs_of_nonneg hv] at htie
    have hne : -(1 / 2) ≠ q - v := fun h => by linarith [htie (by rw [← h]; norm_num)]
    exact ⟨by linarith [lt_of_le_of_ne hlow hne], by linarith⟩
  · rintro ⟨hlow, hhigh⟩
    have hv := nonneg_of_lt_add_one hq v (by linarith)
    refine ⟨abs_le.mpr ⟨by linarith, by linarith⟩, fun htie => ?_⟩
    rw [abs_of_nonneg hv]
    obtain h | h := eq_or_eq_neg_of_abs_eq htie <;> linarith

end Nonneg

end Sys2Proof.Proofs

/-! ### The increment of a discarded fraction (40_rounding.md R82, R83) -/

namespace Sys2Proof.Proofs

open Sys2Proof.Machine Sys2Proof.Laws

/-- What a TruncatedPart says of the discarded fraction of a unit (R82). -/
def PartOfFraction : TruncatedPart → ℝ → Prop
  | .zero, f => f = 0
  | .lessThanHalfNonzero, f => 0 < f ∧ f < 1 / 2
  | .equalToHalf, f => f = 1 / 2
  | .greaterThanHalf, f => 1 / 2 < f ∧ f < 1

theorem partOfFraction_classify (r d : ℕ) (h : r < d) : PartOfFraction (classify r d) ((r : ℝ) / d) := by
  have hd : (0 : ℝ) < d := by exact_mod_cast r.zero_le.trans_lt h
  cases hpart : classify r d with
  | zero =>
    rw [classify_eq_zero_iff] at hpart
    simp [PartOfFraction, hpart]
  | lessThanHalfNonzero =>
    obtain ⟨hr, hlt⟩ := (classify_eq_less_iff r d).mp hpart
    have hr' : (0 : ℝ) < r := by exact_mod_cast Nat.pos_of_ne_zero hr
    have hlt' : 2 * (r : ℝ) < d := by exact_mod_cast hlt
    exact ⟨div_pos hr' hd, by rw [div_lt_iff₀ hd]; linarith⟩
  | equalToHalf =>
    obtain ⟨-, heq⟩ := (classify_eq_half_iff r d).mp hpart
    have heq' : 2 * (r : ℝ) = d := by exact_mod_cast heq
    exact (div_eq_iff hd.ne').mpr (by linarith)
  | greaterThanHalf =>
    obtain ⟨-, hgt⟩ := (classify_eq_greater_iff r d).mp hpart
    have hgt' : (d : ℝ) < 2 * r := by exact_mod_cast hgt
    have h' : (r : ℝ) < d := by exact_mod_cast h
    exact ⟨by rw [lt_div_iff₀ hd]; linarith, (div_lt_one hd).mpr h'⟩

section Fraction

variable {part : TruncatedPart} {f : ℝ} (hf : PartOfFraction part f) (t : Int)

include hf

theorem PartOfFraction.pos (h : part ≠ .zero) : 0 < f := by
  cases part with
  | zero => exact absurd rfl h
  | lessThanHalfNonzero => exact hf.1
  | equalToHalf => rw [show f = 1 / 2 from hf]; norm_num
  | greaterThanHalf => linarith [hf.1]

theorem PartOfFraction.eq_equalToHalf (h : f = 1 / 2) : part = .equalToHalf := by
  cases part with
  | zero => exact absurd ((show f = 0 from hf).symm.trans h) (by norm_num)
  | lessThanHalfNonzero => exact absurd h hf.2.ne
  | equalToHalf => rfl
  | greaterThanHalf => exact absurd h hf.1.ne'

theorem PartOfFraction.nonneg : 0 ≤ f := by
  cases part with
  | zero => exact hf.ge
  | lessThanHalfNonzero | equalToHalf | greaterThanHalf => exact (hf.pos nofun).le

theorem PartOfFraction.lt_one : f < 1 := by
  cases part with
  | zero => rw [show f = 0 from hf]; norm_num
  | lessThanHalfNonzero => linarith [hf.2]
  | equalToHalf => rw [show f = 1 / 2 from hf]; norm_num
  | greaterThanHalf => exact hf.2

/-- UP and CEILING add a unit to every inexact value. -/
theorem increment_eq_ceil :
    increment .up .positive t part = .ok ⌈f⌉ ∧ increment .ceiling .positive t part = .ok ⌈f⌉ := by
  cases part with
  | zero => rw [show f = 0 from hf, Int.ceil_zero]; exact ⟨rfl, rfl⟩
  | lessThanHalfNonzero | equalToHalf | greaterThanHalf =>
    have hceil : ⌈f⌉ = 1 := Int.ceil_eq_iff.mpr ⟨by norm_num [hf.pos nofun], by exact_mod_cast hf.lt_one.le⟩
    rw [hceil]
    exact ⟨rfl, rfl⟩

/-- DOWN and FLOOR add nothing. -/
theorem increment_eq_floor :
    increment .down .positive t part = .ok ⌊f⌋ ∧ increment .floor .positive t part = .ok ⌊f⌋ := by
  rw [Int.floor_eq_zero_iff.mpr ⟨hf.nonneg, hf.lt_one⟩]
  cases part <;> exact ⟨rfl, rfl⟩

/-- HALF_UP adds a unit from the half on. -/
theorem increment_halfUp_eq_floor : increment .halfUp .positive t part = .ok ⌊f + 1 / 2⌋ := by
  have hlt := hf.lt_one
  by_cases hhalf : f < 1 / 2
  · rw [Int.floor_eq_zero_iff.mpr ⟨by linarith [hf.nonneg], by linarith⟩]
    cases part with
    | zero | lessThanHalfNonzero => rfl
    | equalToHalf => exact absurd (show f = 1 / 2 from hf) hhalf.ne
    | greaterThanHalf => exact absurd hf.1 hhalf.not_gt
  · rw [show ⌊f + 1 / 2⌋ = 1 from Int.floor_eq_iff.mpr ⟨by push_cast; linarith, by push_cast; linarith⟩]
    cases part with
    | zero => exact absurd (show f = 0 from hf) (by linarith)
    | lessThanHalfNonzero => exact absurd hf.2 hhalf
    | equalToHalf | greaterThanHalf => rfl

/-- HALF_DOWN adds a unit above the half only. -/
theorem increment_halfDown_eq_ceil : increment .halfDown .positive t part = .ok ⌈f - 1 / 2⌉ := by
  have hlt := hf.lt_one
  by_cases hhalf : 1 / 2 < f
  · rw [show ⌈f - 1 / 2⌉ = 1 from Int.ceil_eq_iff.mpr ⟨by push_cast; linarith, by push_cast; linarith⟩]
    cases part with
    | zero => exact absurd (show f = 0 from hf) (by linarith)
    | lessThanHalfNonzero => exact absurd hf.2 hhalf.not_gt
    | equalToHalf => exact absurd (show f = 1 / 2 from hf) hhalf.ne'
    | greaterThanHalf => rfl
  · have hnonneg := hf.nonneg
    rw [show ⌈f - 1 / 2⌉ = 0 from Int.ceil_eq_iff.mpr ⟨by push_cast; linarith, by push_cast; linarith⟩]
    cases part with
    | zero | lessThanHalfNonzero | equalToHalf => rfl
    | greaterThanHalf => exact absurd hf.1 hhalf

end Fraction

end Sys2Proof.Proofs

/-! ### Round is the textbook rounding (40_rounding.md R81, R84) -/

namespace Sys2Proof.Proofs

open Sys2Proof.Machine Sys2Proof.Laws

/-- A value half a unit from an integer has the fraction one half. -/
theorem fraction_eq_half_of_tie {a v : ℤ} {f : ℝ} (h0 : 0 ≤ f) (h1 : f < 1) (htie : |a + f - v| = 1 / 2) :
    f = 1 / 2 := by
  obtain h | h := eq_or_eq_neg_of_abs_eq htie
  · have hlow : a < v + 1 := by exact_mod_cast (by linarith : (a : ℝ) < v + 1)
    have hhigh : v < a + 1 := by exact_mod_cast (by linarith : (v : ℝ) < a + 1)
    obtain rfl : v = a := by omega
    linarith
  · have hlow : a < v := by exact_mod_cast (by linarith : (a : ℝ) < v)
    have hhigh : v < a + 2 := by exact_mod_cast (by linarith : (v : ℝ) < a + 2)
    obtain rfl : v = a + 1 := by omega
    push_cast at h
    linarith

/-- The results of HALF_EVEN on a tie: the even one of the two neighbours. -/
theorem isRoundingOf_halfEven_tie_iff (a v : ℤ) :
    IsRoundingOf .halfEven (a + 1 / 2) v ↔ (v = a ∨ v = a + 1) ∧ Even v := by
  have hneighbour : |(a : ℝ) + 1 / 2 - v| ≤ 1 / 2 ↔ v = a ∨ v = a + 1 := by
    rw [abs_le]
    constructor
    · rintro ⟨hhigh, hlow⟩
      have h1 : v ≤ a + 1 := by exact_mod_cast (by push_cast; linarith : (v : ℝ) ≤ ((a + 1 : ℤ) : ℝ))
      have h2 : a ≤ v := by exact_mod_cast (by linarith : (a : ℝ) ≤ v)
      omega
    · rintro (rfl | rfl) <;> push_cast <;> constructor <;> linarith
  have hdistance : (v = a ∨ v = a + 1) → |(a : ℝ) + 1 / 2 - v| = 1 / 2 := by
    rintro (rfl | rfl)
    · rw [add_sub_cancel_left, abs_of_pos (by norm_num)]
    · rw [Int.cast_add, Int.cast_one, add_sub_add_left_eq_sub]; norm_num
  simp only [IsRoundingOf, hneighbour]
  exact and_congr_right fun h => ⟨fun heven => heven (hdistance h), fun heven _ => heven⟩

section Fraction

variable {part : TruncatedPart} {f : ℝ} (hf : PartOfFraction part f) (a v : ℤ)

include hf

/-- HALF_UP: the floor of the value and a half. -/
theorem addIncrement_halfUp_ok_iff (ha : 0 ≤ a) :
    addIncrement .halfUp .positive a part = .ok v ↔ IsRoundingOf .halfUp (a + f) v := by
  have hq : 0 ≤ (a : ℝ) + f := add_nonneg (Int.cast_nonneg ha) hf.nonneg
  rw [addIncrement_ok_iff, increment_halfUp_eq_floor hf, isRoundingOf_halfUp_iff hq, add_assoc, Int.floor_intCast_add,
    Except.ok.injEq]
  omega

/-- HALF_EVEN: off a tie it is HALF_UP, on a tie the even neighbour. -/
theorem addIncrement_halfEven_ok_iff (ha : 0 ≤ a) :
    addIncrement .halfEven .positive a part = .ok v ↔ IsRoundingOf .halfEven (a + f) v := by
  rw [addIncrement_ok_iff]
  by_cases hpart : part = .equalToHalf
  · subst hpart
    rw [show f = 1 / 2 from hf, isRoundingOf_halfEven_tie_iff, increment, Int.even_iff, Except.ok.injEq, signValue]
    split <;> omega
  · have hsame : increment .halfEven .positive a part = increment .halfUp .positive a part := by
      cases part with
      | equalToHalf => exact absurd rfl hpart
      | zero | lessThanHalfNonzero | greaterThanHalf => rfl
    have hnoTie : |(a : ℝ) + f - v| ≠ 1 / 2 :=
      fun htie => hpart (hf.eq_equalToHalf (fraction_eq_half_of_tie hf.nonneg hf.lt_one htie))
    rw [hsame, ← addIncrement_ok_iff, addIncrement_halfUp_ok_iff hf a v ha]
    simp only [IsRoundingOf, hnoTie, false_implies]

/-- UNNECESSARY: an integer is kept, and a value between two integers has no rounding. -/
theorem addIncrement_unnecessary_ok_iff :
    addIncrement .unnecessary .positive a part = .ok v ↔ IsRoundingOf .unnecessary (a + f) v := by
  rw [addIncrement_ok_iff]
  cases part with
  | zero =>
    rw [show f = 0 from hf, increment_zero, IsRoundingOf, add_zero, Int.cast_inj, Except.ok.injEq]
    omega
  | lessThanHalfNonzero | equalToHalf | greaterThanHalf =>
    refine iff_of_false nofun fun (hv : (a : ℝ) + f = v) => ?_
    have hpos := hf.pos nofun
    have hlt := hf.lt_one
    have hlow : a < v := by exact_mod_cast (by linarith : (a : ℝ) < v)
    have hhigh : v < a + 1 := by exact_mod_cast (by linarith : (v : ℝ) < a + 1)
    omega

/-- On a truncated value that is not negative, adding the increment of the discarded fraction is rounding the sum. -/
theorem addIncrement_ok_iff_isRoundingOf (rm : RoundingMode) (ha : 0 ≤ a) :
    addIncrement rm .positive a part = .ok v ↔ IsRoundingOf rm (a + f) v := by
  have hq : 0 ≤ (a : ℝ) + f := add_nonneg (Int.cast_nonneg ha) hf.nonneg
  cases rm with
  | up =>
    rw [addIncrement_ok_iff, (increment_eq_ceil hf a).1, isRoundingOf_up_iff hq, Int.ceil_intCast_add, Except.ok.injEq]
    omega
  | ceiling =>
    rw [addIncrement_ok_iff, (increment_eq_ceil hf a).2, isRoundingOf_ceiling_iff, Int.ceil_intCast_add,
      Except.ok.injEq]
    omega
  | down =>
    rw [addIncrement_ok_iff, (increment_eq_floor hf a).1, isRoundingOf_down_iff hq, Int.floor_intCast_add,
      Except.ok.injEq]
    omega
  | floor =>
    rw [addIncrement_ok_iff, (increment_eq_floor hf a).2, isRoundingOf_floor_iff, Int.floor_intCast_add,
      Except.ok.injEq]
    omega
  | halfUp => exact addIncrement_halfUp_ok_iff hf a v ha
  | halfDown =>
    rw [addIncrement_ok_iff, increment_halfDown_eq_ceil hf, isRoundingOf_halfDown_iff hq, add_sub_assoc,
      Int.ceil_intCast_add, Except.ok.injEq]
    omega
  | halfEven => exact addIncrement_halfEven_ok_iff hf a v ha
  | unnecessary => exact addIncrement_unnecessary_ok_iff hf a v

end Fraction

/-- A quotient that is not negative: its integer part and its fraction. -/
theorem roundQuotient_ok_iff_of_nonneg (rm : RoundingMode) (n d v : ℤ) (hn : 0 ≤ n) (hd : 0 < d) :
    roundQuotient rm n d = .ok v ↔ IsRoundingOf rm ((n : ℝ) / d) v := by
  lift n to ℕ using hn
  lift d to ℕ using hd.le
  have hd' : 0 < d := by exact_mod_cast hd
  have hsplit : ((n : ℤ) : ℝ) / (d : ℤ) = ((n / d : ℕ) : ℤ) + ((n % d : ℕ) : ℝ) / d := by
    have hd0 : (d : ℝ) ≠ 0 := Nat.cast_ne_zero.mpr hd'.ne'
    have hmod : (d : ℝ) * (n / d : ℕ) + (n % d : ℕ) = n := by exact_mod_cast Nat.div_add_mod n d
    rw [Int.cast_natCast, Int.cast_natCast, Int.cast_natCast, div_eq_iff hd0, add_mul, div_mul_cancel₀ _ hd0]
    linear_combination -hmod
  have hround : roundQuotient rm n d = addIncrement rm .positive ((n / d : ℕ) : ℤ) (classify (n % d) d) := by
    have hsign : signOfInt ((n : ℤ) * d) = .positive := if_neg (Int.natCast_nonneg (n * d)).not_gt
    rw [roundQuotient_eq rm n d hd.ne', hsign]
    rfl
  rw [hround, hsplit]
  exact addIncrement_ok_iff_isRoundingOf (partOfFraction_classify _ _ (Nat.mod_lt n hd')) _ v rm (Int.natCast_nonneg _)

/-- A negative dividend: round the negated quotient by the inverted mode (R91). -/
theorem roundQuotient_ok_iff_of_pos (rm : RoundingMode) (n d v : ℤ) (hd : 0 < d) :
    roundQuotient rm n d = .ok v ↔ IsRoundingOf rm ((n : ℝ) / d) v := by
  rcases le_total 0 n with hn | hn
  · exact roundQuotient_ok_iff_of_nonneg rm n d v hn hd
  · obtain ⟨-, hvalue, -⟩ := roundOfTheNegatedQuantity rm n d hd.ne'
    rw [hvalue v, roundQuotient_ok_iff_of_nonneg (invertMode rm) (-n) d (-v) (neg_nonneg.mpr hn) hd, Int.cast_neg,
      neg_div, isRoundingOf_invertMode_neg]

/-- A negative divisor: negate both parts. -/
theorem roundQuotient_ok_iff_isRoundingOf (rm : RoundingMode) (n d v : ℤ) (hd : d ≠ 0) :
    roundQuotient rm n d = .ok v ↔ IsRoundingOf rm ((n : ℝ) / d) v := by
  rcases lt_or_gt_of_ne hd with h | h
  · rw [← roundQuotient_neg_neg rm n d hd, roundQuotient_ok_iff_of_pos rm (-n) (-d) v (neg_pos.mpr h), Int.cast_neg,
      Int.cast_neg, neg_div_neg_eq]
  · exact roundQuotient_ok_iff_of_pos rm n d v h

/-- Settles O21, by the two ends of Round. -/
theorem roundIsTheTextbookRounding : Obligations.RoundIsTheTextbookRounding := fun rm n d hd =>
  ⟨fun v => roundQuotient_ok_iff_isRoundingOf rm n d v hd, roundQuotient_error_iff rm n d⟩

end Sys2Proof.Proofs

/-! ### Delivered results on words (40_rounding.md R85, 41_checked64.md R100)

The wrapped result of each checked command is the operation of the same name on patterns, so that a delivery either
completes with that pattern or raises OVERFLOW. -/

namespace Sys2Proof.Proofs

open Sys2Proof.Machine Sys2Proof.Laws

theorem wrap64_add (a b : Word) : wrap64 (signedOf a + signedOf b) = a + b := by
  rw [wrap64, BitVec.ofInt_add]
  exact congrArg₂ _ (wrap64_signedOf a) (wrap64_signedOf b)

theorem wrap64_neg (a : Word) : wrap64 (-signedOf a) = -a := by
  rw [wrap64, BitVec.ofInt_neg]
  exact congrArg _ (wrap64_signedOf a)

theorem wrap64_mul (a b : Word) : wrap64 (signedOf a * signedOf b) = a * b := by
  rw [wrap64, BitVec.ofInt_mul]
  exact congrArg₂ _ (wrap64_signedOf a) (wrap64_signedOf b)

theorem wrap64_sub (a b : Word) : wrap64 (signedOf a - signedOf b) = a - b := by
  apply BitVec.eq_of_toInt_eq
  rw [wrap64, BitVec.toInt_ofInt, BitVec.toInt_sub]
  rfl

theorem wrap64_tdiv (a b : Word) : wrap64 ((signedOf a).tdiv (signedOf b)) = a.sdiv b := by
  apply BitVec.eq_of_toInt_eq
  rw [wrap64, BitVec.toInt_ofInt, BitVec.toInt_sdiv]
  rfl

/-- The sign bit is the sign (R8). -/
theorem signedOf_neg_iff (w : Word) : signedOf w < 0 ↔ w.msb = true := by
  rw [BitVec.msb_eq_toInt, decide_eq_true_iff]
  rfl

/-- Bit 63 says which of `a` and `-a` is the magnitude. -/
theorem wrap64_natAbs (a : Word) : wrap64 ((signedOf a).natAbs : Int) = if a.getLsbD 63 then -a else a := by
  rw [← show a.msb = a.getLsbD 63 from BitVec.msb_eq_getLsbD_last a]
  by_cases hneg : signedOf a < 0
  · rw [if_pos ((signedOf_neg_iff a).mp hneg), Int.ofNat_natAbs_of_nonpos hneg.le, wrap64_neg]
  · rw [if_neg (mt (signedOf_neg_iff a).mpr hneg), Int.natAbs_of_nonneg (not_lt.mp hneg), wrap64_signedOf]

/-- The limits of R7 as numerals. -/
theorem signedOf_bounds (w : Word) : -9223372036854775808 ≤ signedOf w ∧ signedOf w ≤ 9223372036854775807 :=
  (inRange_iff _).mp (inRange_signedOf w)

/-- A wrapped value read as signed: its residue modulo 2^64, in the upper half less 2^64 (R8). -/
theorem signedOf_wrap64_eq_ite (v : Int) :
    signedOf (wrap64 v) =
      if v % 18446744073709551616 < 9223372036854775808 then v % 18446744073709551616
      else v % 18446744073709551616 - 18446744073709551616 := by
  rw [signedOf, wrap64, BitVec.toInt_ofInt, Int.bmod_def]
  rfl

/-- A value in range is read back from its wrapped pattern. -/
theorem signedOf_wrap64 (v : Int) (hv : minValue ≤ v ∧ v ≤ maxValue) : signedOf (wrap64 v) = v := by
  unfold minValue maxValue at hv
  rw [signedOf_wrap64_eq_ite]
  split <;> omega

/-- MIN_VALUE is read from one pattern only. -/
theorem signedOf_eq_minValue_iff (a : Word) : signedOf a = minValue ↔ a = 0x8000000000000000#64 :=
  BitVec.toInt_inj (y := 0x8000000000000000#64)

/-- A command that delivers `v` under CHECKED raises OVERFLOW when `v` is out of range. -/
theorem raisesOverflow_of_resultOf {i : Instr} {s : State} {v : Int} (h : resultOf s.reg i = deliver v .checked)
    (hv : ¬(minValue ≤ v ∧ v ≤ maxValue)) : RaisesCode i 1#3 0b00001#5 s := by
  have hrange : inRange v = false := by rwa [Bool.eq_false_iff, ne_eq, inRange_iff]
  exact raisesCode_of_resultOf (e := .overflow) (h.trans ((deliver_error_iff ..).mpr ⟨rfl, rfl, hrange⟩))

/-- The two ends of a command that delivers `v`, whose pattern is `w` (R85). -/
theorem ends_of_resultOf_eq_deliver {i : Instr} {s : State} {v : Int} {c : OverflowMode} {w : Word}
    (h : resultOf s.reg i = deliver v c) (hw : wrap64 v = w) :
    ((c = .unchecked ∨ (minValue ≤ v ∧ v ≤ maxValue)) → CompletesWith i (destOf i) w s)
      ∧ (c = .checked → ¬(minValue ≤ v ∧ v ≤ maxValue) → RaisesCode i 1#3 0b00001#5 s) := by
  refine ⟨fun hc => ?_, fun hc hv => ?_⟩
  · rw [← inRange_iff] at hc
    exact completesWith_of_resultOf (h.trans ((deliver_ok_iff ..).mpr ⟨hw.symm, hc⟩))
  · subst hc
    exact raisesOverflow_of_resultOf h hv

end Sys2Proof.Proofs

/-! ### The six checked commands (41_checked64.md R101 to R106) -/

namespace Sys2Proof.Proofs

open Sys2Proof.Machine Sys2Proof.Laws

/-- Settles O29: both commands deliver the exact result. -/
theorem addAndSubWriteOrOverflow : Obligations.AddAndSubWriteOrOverflow := by
  rintro rd rs1 rs2 c s _ _ rfl rfl
  obtain ⟨haddOk, haddRaise⟩ :=
    ends_of_resultOf_eq_deliver (i := .add rd rs1 rs2 c) (s := s) rfl (wrap64_add (s.reg rs1) (s.reg rs2))
  obtain ⟨hsubOk, hsubRaise⟩ :=
    ends_of_resultOf_eq_deliver (i := .sub rd rs1 rs2 c) (s := s) rfl (wrap64_sub (s.reg rs1) (s.reg rs2))
  exact ⟨haddOk, haddRaise, hsubOk, hsubRaise⟩

/-- Settles O30: the command delivers the exact product. -/
theorem mulWritesOrOverflows : Obligations.MulWritesOrOverflows := by
  rintro rd rs1 rs2 c s _ rfl
  exact ends_of_resultOf_eq_deliver (i := .mul rd rs1 rs2 c) rfl (wrap64_mul (s.reg rs1) (s.reg rs2))

/-- DOWN keeps the truncated quotient. -/
theorem roundQuotient_down (n d : Int) (hd : d ≠ 0) : roundQuotient .down n d = .ok (n.tdiv d) := by
  rw [roundQuotient_eq .down n d hd, addIncrement_ok_iff, increment_down, sub_self]

theorem divideTruncated_zero (a : Int) (c : OverflowMode) : divideTruncated a 0 c = .error .divByZero := rfl

theorem divideTruncated_of_ne (a b : Int) (c : OverflowMode) (hb : b ≠ 0) :
    divideTruncated a b c = deliver (a.tdiv b) c := by
  rw [divideTruncated, if_neg hb, roundThenDeliver, roundQuotient_down a b hb, deliverRounded_ok]

theorem signedOf_ne_zero (w : Word) (hw : w ≠ 0) : signedOf w ≠ 0 := fun h => hw (BitVec.eq_of_toInt_eq h)

/-- The quotient of two patterns is the truncated quotient, and so in range, but for `MIN_VALUE / -1`. -/
theorem signedOf_sdiv (a b : Word) (h : ¬(a = 0x8000000000000000#64 ∧ b = -1#64)) :
    signedOf (a.sdiv b) = (signedOf a).tdiv (signedOf b) :=
  BitVec.toInt_sdiv_of_ne_or_ne a b (not_and_or.mp h)

/-- Settles O31: the quotient leaves the range at `MIN_VALUE / -1` only. -/
theorem divTruncatesOrRaises : Obligations.DivTruncatesOrRaises := by
  intro rd rs1 rs2 c s
  have hresult (hb : s.reg rs2 ≠ 0) :
      resultOf s.reg (.div rd rs1 rs2 c) = deliver ((signedOf (s.reg rs1)).tdiv (signedOf (s.reg rs2))) c :=
    divideTruncated_of_ne _ _ c (signedOf_ne_zero _ hb)
  refine ⟨fun hb hfits => ?_, fun hb => ?_, fun hc ha hb => ?_⟩
  · refine completesWith_of_resultOf (i := .div rd rs1 rs2 c) ((hresult hb).trans ?_)
    cases c with
    | unchecked => rw [deliver_unchecked, wrap64_tdiv]
    | checked => rw [← signedOf_sdiv _ _ fun h => hfits ⟨rfl, h⟩, deliver_signedOf]
  · refine raisesCode_of_resultOf (i := .div rd rs1 rs2 c) (e := .divByZero) ?_
    rw [resultOf, hb]
    exact divideTruncated_zero _ c
  · subst hc
    refine raisesOverflow_of_resultOf (hresult (by rw [hb]; decide)) ?_
    rw [ha, hb]
    decide

/-- Magnitude and negation leave the range at MIN_VALUE only. -/
theorem natAbs_and_neg_inRange_iff (a : Word) :
    (a ≠ 0x8000000000000000#64 ↔ minValue ≤ ((signedOf a).natAbs : Int) ∧ ((signedOf a).natAbs : Int) ≤ maxValue)
      ∧ (a ≠ 0x8000000000000000#64 ↔ minValue ≤ -signedOf a ∧ -signedOf a ≤ maxValue) := by
  obtain ⟨hlow, hhigh⟩ := signedOf_bounds a
  rw [ne_eq, ← signedOf_eq_minValue_iff]
  unfold minValue maxValue
  omega

/-- Settles O32: both commands deliver the exact result. -/
theorem absAndNegWriteOrOverflow : Obligations.AbsAndNegWriteOrOverflow := by
  intro rd rs1 c s
  obtain ⟨habsRange, hnegRange⟩ := natAbs_and_neg_inRange_iff (s.reg rs1)
  obtain ⟨habsOk, habsRaise⟩ :=
    ends_of_resultOf_eq_deliver (i := .abs rd rs1 c) (s := s) rfl (wrap64_natAbs (s.reg rs1))
  obtain ⟨hnegOk, hnegRaise⟩ :=
    ends_of_resultOf_eq_deliver (i := .neg rd rs1 c) (s := s) rfl (wrap64_neg (s.reg rs1))
  rw [← habsRange] at habsOk habsRaise
  rw [← hnegRange] at hnegOk hnegRaise
  refine ⟨fun h => ?_, fun hc hmin => ⟨habsRaise hc (not_not_intro hmin), hnegRaise hc (not_not_intro hmin)⟩⟩
  have hfits : c = .unchecked ∨ s.reg rs1 ≠ 0x8000000000000000#64 := by
    cases c with
    | unchecked => exact .inl rfl
    | checked => exact .inr fun hmin => h ⟨rfl, hmin⟩
  exact ⟨habsOk hfits, hnegOk hfits⟩

end Sys2Proof.Proofs

/-! ### The overflow tests (41_checked64.md R107) -/

namespace Sys2Proof.Proofs

open Sys2Proof.Machine Sys2Proof.Laws

/-- The patterns of `a` and `b` differ in the sign bit exactly when their signs differ. -/
theorem signedOf_xor_neg_iff (a b : Word) : signedOf (a ^^^ b) < 0 ↔ ¬(signedOf a < 0 ↔ signedOf b < 0) := by
  rw [signedOf_neg_iff, signedOf_neg_iff, signedOf_neg_iff, BitVec.msb_xor]
  cases a.msb <;> cases b.msb <;> decide

/-- A sum overflows exactly when its terms have one sign and the wrapped sum has the other. -/
theorem addOverflows_iff (a b : Word) :
    addOverflows a b = true ↔ ¬(minValue ≤ signedOf a + signedOf b ∧ signedOf a + signedOf b ≤ maxValue) := by
  obtain ⟨haLow, haHigh⟩ := signedOf_bounds a
  obtain ⟨hbLow, hbHigh⟩ := signedOf_bounds b
  rw [addOverflows, decide_eq_true_iff, ← not_lt, signedOf_xor_neg_iff, signedOf_xor_neg_iff, ← wrap64_add,
    signedOf_wrap64_eq_ite]
  unfold minValue maxValue
  split <;> omega

/-- A difference overflows exactly when its terms differ in sign and the wrapped difference has the subtrahend's. -/
theorem subOverflows_iff (a b : Word) :
    subOverflows a b = true ↔ ¬(minValue ≤ signedOf a - signedOf b ∧ signedOf a - signedOf b ≤ maxValue) := by
  obtain ⟨haLow, haHigh⟩ := signedOf_bounds a
  obtain ⟨hbLow, hbHigh⟩ := signedOf_bounds b
  rw [subOverflows, decide_eq_true_iff, signedOf_xor_neg_iff, signedOf_xor_neg_iff, ← wrap64_sub,
    signedOf_wrap64_eq_ite]
  unfold minValue maxValue
  split <;> omega

/-- Dividing a product in range by one factor gives the other back. -/
theorem sdiv_mul_self_of_fits (a b : Word) (ha : a ≠ 0)
    (hfits : minValue ≤ signedOf a * signedOf b ∧ signedOf a * signedOf b ≤ maxValue) : (a * b).sdiv a = b := by
  rw [← wrap64_tdiv, ← wrap64_mul, signedOf_wrap64 _ hfits,
    Int.mul_tdiv_cancel_left _ (signedOf_ne_zero a ha), wrap64_signedOf]

/-- If the wrapped product divided by one factor gives the other, the product is exact: the remainder of that division
is a multiple of 2^64 smaller than the factor. -/
theorem signedOf_mul_of_sdiv_eq (a b : Word) (ha : a ≠ 0) (hdiv : (a * b).sdiv a = b)
    (hmin : ¬(signedOf a = -1 ∧ signedOf b = minValue)) : signedOf (a * b) = signedOf a * signedOf b := by
  have hquot : (signedOf (a * b)).tdiv (signedOf a) = signedOf b := by
    rw [← signedOf_sdiv, hdiv]
    rintro ⟨hprod, rfl⟩
    refine hmin ⟨rfl, ?_⟩
    rw [← hdiv, hprod]
    decide
  have hwrap : (2 ^ 64 : Int) ∣ signedOf (a * b) - signedOf a * signedOf b := by
    rw [show signedOf (a * b) = (signedOf a * signedOf b).bmod (2 ^ 64) from BitVec.toInt_mul a b]
    exact Int.dvd_bmod_sub_self
  have hrem : signedOf (a * b) - signedOf a * signedOf b = (signedOf (a * b)).tmod (signedOf a) := by
    rw [Int.tmod_def, hquot]
  have hsmall : |(signedOf (a * b)).tmod (signedOf a)| < |signedOf a| := abs_tmod_lt _ _ (signedOf_ne_zero a ha)
  have hfactor : |signedOf a| ≤ 2 ^ 63 := by
    obtain ⟨hlow, hhigh⟩ := signedOf_bounds a
    exact abs_le.mpr ⟨hlow, by omega⟩
  rw [← sub_eq_zero]
  refine Int.eq_zero_of_abs_lt_dvd hwrap ?_
  rw [hrem]
  omega

/-- A product overflows exactly when the wrapped product does not divide back, or is `-1 * MIN_VALUE`, whose division
overflows in turn. -/
theorem mulOverflows_iff (a b : Word) :
    mulOverflows a b = true ↔ ¬(minValue ≤ signedOf a * signedOf b ∧ signedOf a * signedOf b ≤ maxValue) := by
  rw [mulOverflows, decide_eq_true_iff]
  constructor
  · rintro ⟨ha, hdiv | ⟨hone, hmin⟩⟩ hfits
    · exact hdiv (sdiv_mul_self_of_fits a b ha hfits)
    · rw [hone, hmin] at hfits
      exact absurd hfits (by decide)
  · contrapose!
    intro h
    rcases eq_or_ne a 0 with rfl | ha
    · rw [show signedOf 0 = 0 from rfl, zero_mul]
      decide
    · obtain ⟨hdiv, hmin⟩ := h ha
      rw [← signedOf_mul_of_sdiv_eq a b ha hdiv fun hboth => hmin hboth.1 hboth.2]
      exact signedOf_bounds (a * b)

/-- Settles O33, test by test. -/
theorem overflowTestsAreExact : Obligations.OverflowTestsAreExact := fun a b =>
  ⟨addOverflows_iff a b, subOverflows_iff a b, mulOverflows_iff a b⟩

end Sys2Proof.Proofs

/-! ### Commands that are the same operation (40_rounding.md R90, 41_checked64.md R104, 45_multiplicative.md R150, R151,
47_pow10_additive.md R179, R180) -/

namespace Sys2Proof.Proofs

open Sys2Proof.Machine Sys2Proof.Laws

/-- Two commands with the same result end alike. -/
theorem endAlike_of_resultOf_eq {i j : Instr} {s : State} (h : resultOf s.reg i = resultOf s.reg j) : EndAlike i j s :=
  ⟨resultOf s.reg i, exec_eq_conclude i s, h ▸ exec_eq_conclude j s⟩

theorem scaleFactor_zero : scaleFactor 0 = 1 := rfl

/-- R104: at scale 0 a quotient rounded DOWN is the truncated one. -/
theorem divideScaled_zero_down (a b : Int) (c : OverflowMode) :
    divideScaled a b 0 .down c = divideTruncated a b c := by
  rw [divideScaled, divideTruncated, scaleFactor_zero, Nat.cast_one, mul_one]

/-- R150 (a): at scale 0 the product is an integer, which no mode changes. -/
theorem multiplyScaled_zero (a b : Int) (rm : RoundingMode) (c : OverflowMode) :
    multiplyScaled a b 0 rm c = deliver (a * b) c := by
  rw [multiplyScaled, scaleFactor_zero, Nat.cast_one, roundThenDeliver,
    roundQuotient_of_dvd rm (a * b) 1 one_ne_zero (one_dvd _), Int.ediv_one, deliverRounded_ok]

/-- R179 (a): at equal scales nothing is scaled. -/
theorem addScaled_self (a b : Int) (sc : Nat) (rm : RoundingMode) (c : OverflowMode) :
    addScaled a b sc sc rm c = deliver (a + b) c := by
  rw [addScaled, if_pos le_rfl, Nat.sub_self, pow_zero, mul_one]

/-- R90: with a zero high word the 128-bit remainder is the low word. -/
theorem wideOf_zero (lo : Word) : wideOf 0 lo = unsignedOf lo := Nat.zero_add _

/-- R89, R90: on a 64-bit remainder the two limits are the same. -/
theorem classifyPow2_limits_agree (r n : Nat) (hr : r < 2 ^ 64) : classifyPow2 130 r n = classifyPow2 66 r n := by
  rw [classifyPow2_eq_classify 130 r n (by omega), classifyPow2_eq_classify 66 r n (by omega)]

/-- Settles O60, pair by pair on the results. -/
theorem sameOperationsEndAlike : Obligations.SameOperationsEndAlike := by
  intro rd rs1 rs2 rs3 sc rm c s
  refine ⟨endAlike_of_resultOf_eq ?_, endAlike_of_resultOf_eq ?_, endAlike_of_resultOf_eq rfl,
    endAlike_of_resultOf_eq ?_, endAlike_of_resultOf_eq ?_, fun hhi => endAlike_of_resultOf_eq ?_⟩
  · exact (divideScaled_zero_down _ _ c).symm
  · exact (multiplyScaled_zero _ _ rm c).symm
  · exact (addScaled_self _ _ sc rm c).symm
  · exact (congrArg (deliver · c) (sub_eq_add_neg _ _)).trans (addScaled_self _ _ sc rm c).symm
  · rw [resultOf, resultOf, hhi, wideOf_zero, classifyPow2_limits_agree (unsignedOf (s.reg rs2)) _ (s.reg rs2).isLt]

end Sys2Proof.Proofs


/-! ### The unsigned comparisons and division (42_unsigned64.md R115 to R120) -/

namespace Sys2Proof.Proofs

open Sys2Proof.Machine Sys2Proof.Laws

/-- The three results of R116 as patterns. -/
theorem compareUnsigned_eq (a b : Nat) :
    compareUnsigned a b = if a < b then 0xFFFFFFFFFFFFFFFF#64 else if a = b then 0 else 1 := rfl

theorem truthWord_decide (p : Prop) [Decidable p] : truthWord (decide p) = if p then 1 else 0 := by
  by_cases hp : p <;> simp [truthWord, hp]

/-- Settles O34: each verdict is taken on the unsigned readings. -/
theorem unsignedComparisonsWriteTheirVerdict : Obligations.UnsignedComparisonsWriteTheirVerdict := by
  rintro rd rs1 rs2 s _ _ rfl rfl
  exact ⟨completesWith_of_resultOf (congrArg Except.ok (compareUnsigned_eq _ _)),
    completesWith_of_resultOf (congrArg Except.ok (truthWord_decide _)),
    completesWith_of_resultOf (congrArg Except.ok (truthWord_decide _)),
    completesWith_of_resultOf (congrArg Except.ok (truthWord_decide _))⟩

/-- A wrapped natural number is its pattern. -/
theorem wrap64_natCast (n : Nat) : wrap64 (n : Int) = BitVec.ofNat 64 n := BitVec.ofInt_natCast 64 n

theorem divideUnsigned_zero (a : Nat) : divideUnsigned a 0 = .error .divByZero := rfl

theorem divideUnsigned_of_ne (a b : Word) (hb : b ≠ 0) :
    divideUnsigned (unsignedOf a) (unsignedOf b) = .ok (a / b) := by
  have hb' : unsignedOf b ≠ 0 := fun h => hb (BitVec.eq_of_toNat_eq h)
  rw [divideUnsigned, if_neg hb', wrap64_natCast, BitVec.udiv_def]
  rfl

/-- Settles O35, by the divisor. -/
theorem udivWritesTheUnsignedQuotient : Obligations.UdivWritesTheUnsignedQuotient := by
  refine fun rd rs1 rs2 s => ⟨fun hb => ?_, fun hb => ?_⟩
  · exact completesWith_of_resultOf (i := .udiv rd rs1 rs2) (divideUnsigned_of_ne _ _ hb)
  · refine raisesCode_of_resultOf (i := .udiv rd rs1 rs2) (e := .divByZero) ?_
    rw [resultOf, hb]
    exact divideUnsigned_zero _

end Sys2Proof.Proofs

/-! ### The unsigned remainder in three commands (42_unsigned64.md R120) -/

namespace Sys2Proof.Proofs

open Sys2Proof.Machine Sys2Proof.Laws

/-- The next state of a command that completes. -/
theorem eq_complete_of_completesWith {i : Instr} {rd : Reg} {v : Word} {s t : State} (h : CompletesWith i rd v s)
    (hnext : exec i s = .next t) : t = s.complete rd v :=
  Host.Outcome.next.inj (hnext.symm.trans h)

/-- R126: the low half of the product is the product of patterns. -/
theorem mullo_completesWith (rd rs1 rs2 : Reg) (s : State) :
    CompletesWith (.mullo rd rs1 rs2) rd (s.reg rs1 * s.reg rs2) s := by
  refine completesWith_of_resultOf (i := .mullo rd rs1 rs2) (congrArg Except.ok ?_)
  rw [wrap64_natCast, BitVec.mul_def]
  rfl

/-- The wrapped difference is exact: the product does not exceed the dividend. -/
theorem sub_udiv_mul (a b : Word) : a - a / b * b = a % b := by
  have hprod : (a / b * b).toNat = a.toNat / b.toNat * b.toNat := by
    rw [BitVec.toNat_mul_of_lt, BitVec.toNat_udiv]
    rw [BitVec.toNat_udiv]
    exact (Nat.div_mul_le_self _ _).trans_lt a.isLt
  have hle : a / b * b ≤ a := by
    rw [BitVec.le_def, hprod]
    exact Nat.div_mul_le_self _ _
  apply BitVec.eq_of_toNat_eq
  rw [BitVec.toNat_sub_of_le hle, hprod, BitVec.toNat_umod, Nat.mod_eq_sub_div_mul]

/-- Settles O36: neither the quotient nor the product overwrites an operand that a later command still reads. -/
theorem udivThenMulloThenSubGivesTheRemainder : Obligations.UdivThenMulloThenSubGivesTheRemainder := by
  intro q1 q2 q3 q4 s t1 t2 h31 h32 h41 hdivisor hudiv hmullo
  obtain rfl := eq_complete_of_completesWith ((udivWritesTheUnsignedQuotient q3 q1 q2 s).1 hdivisor) hudiv
  obtain rfl := eq_complete_of_completesWith (mullo_completesWith q4 q3 q2 _) hmullo
  obtain ⟨-, -, hsub, -⟩ := addAndSubWriteOrOverflow q4 q1 q4 .unchecked _ _ _ rfl rfl
  refine ⟨_, hsub (.inl rfl), (complete_reg _ q4 q4 _).trans ?_⟩
  simp only [complete_reg, if_true, if_neg h31, if_neg h32, if_neg h41, sub_udiv_mul]

end Sys2Proof.Proofs

/-! ### The realisations of the unsigned commands (42_unsigned64.md R121) -/

namespace Sys2Proof.Proofs

open Sys2Proof.Machine Sys2Proof.Laws

/-- Flipping the sign bit shifts the unsigned range down onto the signed one. -/
theorem signedOf_flip (w : Word) : signedOf (w ^^^ 0x8000000000000000#64) = (w.toNat : Int) - 2 ^ 63 := by
  have hsign := signedOf_xor_neg_iff w 0x8000000000000000#64
  have hbit : signedOf 0x8000000000000000#64 < 0 := by decide
  have hlow : (w ^^^ 0x8000000000000000#64).toNat % 2 ^ 63 = w.toNat % 2 ^ 63 := by
    rw [BitVec.toNat_xor, Nat.xor_mod_two_pow]
    exact Nat.xor_zero _
  have hw := w.isLt
  have hflip := (w ^^^ 0x8000000000000000#64).isLt
  simp only [signedOf, BitVec.toInt_eq_toNat_cond] at hsign hbit ⊢
  omega

theorem lessByFlip_iff (a b : Word) : lessByFlip a b = true ↔ a.toNat < b.toNat := by
  rw [lessByFlip, decide_eq_true_iff, signedOf_flip, signedOf_flip, sub_lt_sub_iff_right, Nat.cast_lt]

/-- A pattern is not negative exactly when it is below 2^63. -/
theorem signedOf_nonneg_iff (w : Word) : 0 ≤ signedOf w ↔ w.toNat < 2 ^ 63 := by
  have hw := w.isLt
  rw [signedOf, BitVec.toInt_eq_toNat_cond]
  split <;> omega

/-- Below 2^63 signed and unsigned division agree. -/
theorem toNat_sdiv_of_lt (a b : Word) (ha : a.toNat < 2 ^ 63) (hb : b.toNat < 2 ^ 63) :
    (a.sdiv b).toNat = a.toNat / b.toNat := by
  have hmsb (w : Word) (hw : w.toNat < 2 ^ 63) : w.msb = false := by
    rw [BitVec.msb_eq_false_iff_two_mul_lt]
    omega
  rw [BitVec.sdiv_eq, hmsb a ha, hmsb b hb]
  exact BitVec.toNat_udiv

theorem toNat_ushiftRight_one (w : Word) : (w >>> 1).toNat = w.toNat / 2 := by
  rw [BitVec.toNat_ushiftRight, Nat.shiftRight_eq_div_pow, pow_one]

/-- A halved pattern is not negative. -/
theorem toNat_ushiftRight_one_lt (w : Word) : (w >>> 1).toNat < 2 ^ 63 := by
  have := w.isLt
  rw [toNat_ushiftRight_one]
  omega

/-- A dividend below twice the divisor needs one comparison. -/
theorem div_eq_ite_of_lt_two_mul (n d : Nat) (h : n < 2 * d) : n / d = if d ≤ n then 1 else 0 := by
  split_ifs with hle
  · exact Nat.div_eq_of_lt_le (by omega) (by omega)
  · exact Nat.div_eq_of_lt (by omega)

/-- Twice the quotient of the halved dividend leaves a remainder below twice the divisor. -/
theorem double_half_quotient_bounds (n d : Nat) (hd : 0 < d) :
    n / 2 / d * 2 * d ≤ n ∧ n - n / 2 / d * 2 * d < 2 * d := by
  have hhalf := Nat.div_add_mod' (n / 2) d
  have hrem := Nat.mod_lt (n / 2) hd
  rw [mul_right_comm]
  omega

/-- The doubled quotient of the halved dividend is exact or one too low, and one comparison of the remainder tells. -/
theorem toNat_corrected_double_quotient (n d q : Word) (hd : d ≠ 0) (hq : q.toNat = n.toNat / 2 / d.toNat * 2) :
    (if d ≤ n - q * d then q + 1 else q).toNat = n.toNat / d.toNat := by
  have hpos : 0 < d.toNat := Nat.pos_of_ne_zero fun h => hd (BitVec.eq_of_toNat_eq h)
  obtain ⟨hle, hlt⟩ := double_half_quotient_bounds n.toNat d.toNat hpos
  rw [← hq] at hle hlt
  have hprod : (q * d).toNat = q.toNat * d.toNat := BitVec.toNat_mul_of_lt (hle.trans_lt n.isLt)
  have hrem : (n - q * d).toNat = n.toNat - q.toNat * d.toNat := by
    rw [BitVec.toNat_sub_of_le (by rwa [BitVec.le_def, hprod]), hprod]
  have hquot : n.toNat / d.toNat = q.toNat + (n - q * d).toNat / d.toNat := by
    rw [hrem, ← Nat.mul_add_div hpos, mul_comm d.toNat, Nat.add_sub_cancel' hle]
  have hdigit : (n - q * d).toNat / d.toNat = if d ≤ n - q * d then 1 else 0 :=
    div_eq_ite_of_lt_two_mul _ _ (hrem ▸ hlt)
  have hroom : q.toNat + 1 < 2 ^ 64 := by
    have := q.isLt
    omega
  rw [hquot, hdigit]
  split_ifs
  · exact BitVec.toNat_add_of_lt hroom
  · rfl

/-- The doubled quotient of the halved dividend is formed without overflow. -/
theorem toNat_double_half_quotient (n d : Word) (hd : d.toNat < 2 ^ 63) :
    ((n >>> 1).sdiv d * 2).toNat = n.toNat / 2 / d.toNat * 2 := by
  have hn := n.isLt
  have hquot : ((n >>> 1).sdiv d).toNat = n.toNat / 2 / d.toNat := by
    rw [toNat_sdiv_of_lt _ _ (toNat_ushiftRight_one_lt n) hd, toNat_ushiftRight_one]
  have hsize : n.toNat / 2 / d.toNat ≤ n.toNat / 2 := Nat.div_le_self _ _
  rw [← hquot] at hsize ⊢
  exact BitVec.toNat_mul_of_lt (show _ * 2 < 2 ^ 64 by omega)

theorem and_one_eq_zero_iff (w : Word) : w &&& 1 = 0 ↔ w.toNat % 2 = 0 := by
  rw [← BitVec.toNat_inj, BitVec.toNat_and]
  exact Nat.and_one_is_mod w.toNat ▸ Iff.rfl

/-- Halving both operands keeps the quotient by an even divisor. -/
theorem half_div_half_of_even (n d : Nat) (hd : d % 2 = 0) : n / 2 / (d / 2) = n / d := by
  rw [Nat.div_div_eq_div_mul, Nat.mul_div_cancel' (Nat.dvd_of_mod_eq_zero hd)]

/-- R121, branch by branch: a large divisor, two small operands, an even divisor, and the corrected halving. -/
theorem toNat_divideByHalving (n d : Word) (hd : d ≠ 0) : (divideByHalving n d).toNat = n.toNat / d.toNat := by
  have hn := n.isLt
  unfold divideByHalving
  by_cases hlarge : signedOf d < 0
  · have hd63 : ¬ d.toNat < 2 ^ 63 := by rwa [← signedOf_nonneg_iff, not_le]
    rw [if_pos hlarge, div_eq_ite_of_lt_two_mul n.toNat d.toNat (by omega)]
    exact apply_ite BitVec.toNat _ _ _
  have hd63 : d.toNat < 2 ^ 63 := by rwa [← signedOf_nonneg_iff, ← not_lt]
  rw [if_neg hlarge]
  by_cases hsmall : 0 ≤ signedOf n
  · rw [if_pos hsmall]
    exact toNat_sdiv_of_lt n d ((signedOf_nonneg_iff n).mp hsmall) hd63
  rw [if_neg hsmall]
  by_cases heven : d &&& 1 = 0
  · rw [if_pos heven, toNat_sdiv_of_lt _ _ (toNat_ushiftRight_one_lt n) (toNat_ushiftRight_one_lt d),
      toNat_ushiftRight_one, toNat_ushiftRight_one, half_div_half_of_even _ _ ((and_one_eq_zero_iff d).mp heven)]
  · rw [if_neg heven]
    exact toNat_corrected_double_quotient n d _ hd (toNat_double_half_quotient n d hd63)

/-- Settles O37, realisation by realisation. -/
theorem unsignedRealisationsAreExact : Obligations.UnsignedRealisationsAreExact := fun a b =>
  ⟨lessByFlip_iff a b, toNat_divideByHalving a b⟩

end Sys2Proof.Proofs

/-! ### The 128-bit primitives (43_wide128.md R125 to R131)

A 128-bit pattern stands for an integer, and its halves are the wrapped integer and its wrapped floor over 2^64. -/

namespace Sys2Proof.Proofs

open Sys2Proof.Machine Sys2Proof.Laws

/-- The low half of a 128-bit pattern wraps the integer it stands for. -/
theorem extractLsb'_low_ofInt (v : Int) : (BitVec.ofInt 128 v).extractLsb' 0 64 = wrap64 v := by
  apply BitVec.eq_of_toNat_eq
  rw [BitVec.extractLsb'_toNat, Nat.shiftRight_zero, wrap64, BitVec.toNat_ofInt, BitVec.toNat_ofInt]
  omega

/-- The high half wraps the floor over 2^64, also of a negative integer (R128). -/
theorem extractLsb'_high_ofInt (v : Int) : (BitVec.ofInt 128 v).extractLsb' 64 64 = wrap64 (v / 2 ^ 64) := by
  apply BitVec.eq_of_toNat_eq
  rw [BitVec.extractLsb'_toNat, Nat.shiftRight_eq_div_pow, wrap64, BitVec.toNat_ofInt, BitVec.toNat_ofInt]
  omega

theorem zeroExtend_eq_ofInt (w : Word) : w.zeroExtend 128 = BitVec.ofInt 128 (unsignedOf w) := by
  rw [BitVec.ofInt_natCast]
  exact (BitVec.ofNat_toNat 128 w).symm

/-- The unsigned product of two words is exact in 128 bits. -/
theorem zeroExtend_mul_zeroExtend (x y : Word) :
    x.zeroExtend 128 * y.zeroExtend 128 = BitVec.ofInt 128 ((unsignedOf x * unsignedOf y : Nat) : Int) := by
  rw [zeroExtend_eq_ofInt, zeroExtend_eq_ofInt, ← BitVec.ofInt_mul, Nat.cast_mul]

/-- The signed product of two words is exact in 128 bits. -/
theorem signExtend_mul_signExtend (x y : Word) :
    x.signExtend 128 * y.signExtend 128 = BitVec.ofInt 128 (signedOf x * signedOf y) :=
  (BitVec.ofInt_mul (signedOf x) (signedOf y)).symm

/-- Settles O38: each command wraps its half of the exact product. -/
theorem wideningMultiplyWritesTheHalves : Obligations.WideningMultiplyWritesTheHalves := by
  rintro rd rs1 rs2 s _ _ rfl rfl
  rw [zeroExtend_mul_zeroExtend, signExtend_mul_signExtend, extractLsb'_low_ofInt, extractLsb'_high_ofInt,
    extractLsb'_high_ofInt]
  exact ⟨completesWith_of_resultOf rfl,
    completesWith_of_resultOf (congrArg (fun v => Except.ok (wrap64 v)) (Int.natCast_ediv _ _)),
    completesWith_of_resultOf rfl⟩

/-- A 128-bit quotient by an extended word, on the unsigned readings. -/
theorem append_div_zeroExtend (hi lo d : Word) :
    (hi ++ lo) / d.zeroExtend 128 = BitVec.ofInt 128 ((wideOf hi lo / unsignedOf d : Nat) : Int) := by
  rw [BitVec.ofInt_natCast, BitVec.udiv_def, wideOf_eq_toNat_append, BitVec.toNat_setWidth_of_le (by decide)]
  rfl

theorem append_mod_zeroExtend (hi lo d : Word) :
    (hi ++ lo) % d.zeroExtend 128 = BitVec.ofInt 128 ((wideOf hi lo % unsignedOf d : Nat) : Int) := by
  rw [BitVec.ofInt_natCast, BitVec.umod_def, wideOf_eq_toNat_append, BitVec.toNat_setWidth_of_le (by decide)]
  rfl

/-- R129: the quotient needs more than 64 bits exactly when the high word is not below the divisor. -/
theorem two_pow_le_wideOf_div_iff (hi lo d : Word) (hd : unsignedOf d ≠ 0) :
    2 ^ 64 ≤ wideOf hi lo / unsignedOf d ↔ d.toNat ≤ hi.toNat := by
  have hlo := lo.isLt
  rw [Nat.le_div_iff_mul_le (Nat.pos_of_ne_zero hd)]
  unfold wideOf unsignedOf
  omega

theorem wideQuotient_zero (n : Nat) (c : OverflowMode) : wideQuotient n 0 c = .error .divByZero := rfl

theorem wideRemainder_zero (n : Nat) : wideRemainder n 0 = .error .divByZero := rfl

theorem wideQuotient_of_fits (n d : Nat) (c : OverflowMode) (hd : d ≠ 0) (h : c = .unchecked ∨ ¬2 ^ 64 ≤ n / d) :
    wideQuotient n d c = .ok (wrap64 ((n / d : Nat) : Int)) := by
  have hfits : ¬(2 ^ 64 ≤ n / d ∧ c = .checked) := by
    rintro ⟨hlarge, rfl⟩
    exact h.elim nofun fun hsmall => hsmall hlarge
  rw [wideQuotient, if_neg hd, if_neg hfits]

theorem wideQuotient_of_overflow (n d : Nat) (hd : d ≠ 0) (h : 2 ^ 64 ≤ n / d) :
    wideQuotient n d .checked = .error .overflow := by
  rw [wideQuotient, if_neg hd, if_pos ⟨h, rfl⟩]

theorem wideRemainder_of_ne (n d : Nat) (hd : d ≠ 0) : wideRemainder n d = .ok (wrap64 ((n % d : Nat) : Int)) :=
  if_neg hd

/-- Settles O39, by the divisor and the size of the quotient. -/
theorem wideDivisionWritesQuotientAndRemainder : Obligations.WideDivisionWritesQuotientAndRemainder := by
  rintro rd rs1 rs2 rs3 c s _ _ _ rfl rfl rfl
  have hdivisor (h : s.reg rs3 ≠ 0) : unsignedOf (s.reg rs3) ≠ 0 := fun h0 => h (BitVec.eq_of_toNat_eq h0)
  rw [append_div_zeroExtend, append_mod_zeroExtend, extractLsb'_low_ofInt, extractLsb'_low_ofInt]
  refine ⟨fun hd hfits => ?_, fun hd hc hlarge => ?_, fun hd => ?_, fun hd => ?_, fun hd => ?_⟩
  · refine completesWith_of_resultOf (i := .divwq rd rs1 rs2 rs3 c) (wideQuotient_of_fits _ _ c (hdivisor hd) ?_)
    rwa [two_pow_le_wideOf_div_iff _ _ _ (hdivisor hd), not_le]
  · subst hc
    exact raisesCode_of_resultOf (i := .divwq rd rs1 rs2 rs3 .checked) (e := .overflow)
      (wideQuotient_of_overflow _ _ (hdivisor hd) ((two_pow_le_wideOf_div_iff _ _ _ (hdivisor hd)).mpr hlarge))
  · refine raisesCode_of_resultOf (i := .divwq rd rs1 rs2 rs3 c) (e := .divByZero) ?_
    rw [resultOf, hd]
    exact wideQuotient_zero _ c
  · exact completesWith_of_resultOf (i := .divwr rd rs1 rs2 rs3) (wideRemainder_of_ne _ _ (hdivisor hd))
  · refine raisesCode_of_resultOf (i := .divwr rd rs1 rs2 rs3) (e := .divByZero) ?_
    rw [resultOf, hd]
    exact wideRemainder_zero _

/-- Settles O40: the power of ten is the pattern written. -/
theorem ldsfWritesThePowerOfTen : Obligations.LdsfWritesThePowerOfTen := by
  intro rd sc s v _ hv
  refine completesWith_of_resultOf (i := .ldsf rd sc) (congrArg Except.ok ?_)
  rw [wrap64_natCast, scaleFactor, ← hv, BitVec.ofNat_toNat, BitVec.setWidth_eq]

end Sys2Proof.Proofs

/-! ### The realisation of the widening multiply (43_wide128.md R132) -/

namespace Sys2Proof.Proofs

open Sys2Proof.Machine Sys2Proof.Laws

theorem toNat_and_mask32 (w : Word) : (w &&& 0xFFFFFFFF#64).toNat = w.toNat % 2 ^ 32 := by
  rw [BitVec.toNat_and]
  exact Nat.and_two_pow_sub_one_eq_mod w.toNat 32

theorem toNat_ushiftRight_32 (w : Word) : (w >>> 32).toNat = w.toNat / 2 ^ 32 := by
  rw [BitVec.toNat_ushiftRight, Nat.shiftRight_eq_div_pow]

/-- Two 32-bit halves side by side. -/
theorem toNat_low_or_shifted_low (w v : Word) :
    ((w &&& 0xFFFFFFFF#64) ||| ((v &&& 0xFFFFFFFF#64) <<< 32)).toNat =
      w.toNat % 2 ^ 32 + v.toNat % 2 ^ 32 * 2 ^ 32 := by
  have hshift : ((v &&& 0xFFFFFFFF#64) <<< 32).toNat = (v.toNat % 2 ^ 32) <<< 32 := by
    rw [BitVec.toNat_shiftLeft, toNat_and_mask32, Nat.shiftLeft_eq]
    omega
  rw [BitVec.toNat_or, hshift, toNat_and_mask32, Nat.or_comm,
    ← Nat.shiftLeft_add_eq_or_of_lt (Nat.mod_lt _ (by decide)), Nat.shiftLeft_eq, Nat.add_comm]

/-- The sum of R132 over the columns of four partial products: (high, low). -/
def addColumns (p00 p01 p10 p11 : Word) : Word × Word :=
  let mid := (p00 >>> 32) + (p01 &&& 0xFFFFFFFF#64) + (p10 &&& 0xFFFFFFFF#64)
  (p11 + (p01 >>> 32) + (p10 >>> 32) + (mid >>> 32),
    (p00 &&& 0xFFFFFFFF#64) ||| ((mid &&& 0xFFFFFFFF#64) <<< 32))

theorem mulWide_eq_addColumns (a b : Word) :
    mulWide a b =
      addColumns ((a &&& 0xFFFFFFFF#64) * (b &&& 0xFFFFFFFF#64)) ((a &&& 0xFFFFFFFF#64) * (b >>> 32))
        ((a >>> 32) * (b &&& 0xFFFFFFFF#64)) ((a >>> 32) * (b >>> 32)) := rfl

/-- The middle column stays below `3 * 2^32`. -/
theorem toNat_middle_column (p q r : Word) :
    ((p >>> 32) + (q &&& 0xFFFFFFFF#64) + (r &&& 0xFFFFFFFF#64)).toNat =
      p.toNat / 2 ^ 32 + q.toNat % 2 ^ 32 + r.toNat % 2 ^ 32 := by
  have hp := p.isLt
  rw [BitVec.toNat_add, BitVec.toNat_add, toNat_ushiftRight_32, toNat_and_mask32, toNat_and_mask32]
  omega

/-- The columns add up the partial products at their places, when the sum leaves no carry out of the high word. -/
theorem addColumns_eq_sum (p00 p01 p10 p11 : Word)
    (hfits : p11.toNat * 2 ^ 64 + (p01.toNat + p10.toNat) * 2 ^ 32 + p00.toNat < 2 ^ 128) :
    (addColumns p00 p01 p10 p11).1.toNat * 2 ^ 64 + (addColumns p00 p01 p10 p11).2.toNat =
      p11.toNat * 2 ^ 64 + (p01.toNat + p10.toNat) * 2 ^ 32 + p00.toNat := by
  have hmid := toNat_middle_column p00 p01 p10
  simp only [addColumns]
  generalize (p00 >>> 32) + (p01 &&& 0xFFFFFFFF#64) + (p10 &&& 0xFFFFFFFF#64) = mid at hmid ⊢
  simp only [toNat_low_or_shifted_low, BitVec.toNat_add, toNat_ushiftRight_32]
  omega

/-- The product of two 32-bit halves fits a word. -/
theorem toNat_mul_of_lt_two_pow_32 (w v : Word) (hw : w.toNat < 2 ^ 32) (hv : v.toNat < 2 ^ 32) :
    (w * v).toNat = w.toNat * v.toNat :=
  BitVec.toNat_mul_of_lt (show _ < 2 ^ 32 * 2 ^ 32 from Nat.mul_lt_mul'' hw hv)

theorem toNat_and_mask32_lt (w : Word) : (w &&& 0xFFFFFFFF#64).toNat < 2 ^ 32 := by
  rw [toNat_and_mask32]
  exact Nat.mod_lt _ (by decide)

theorem toNat_ushiftRight_32_lt (w : Word) : (w >>> 32).toNat < 2 ^ 32 := by
  rw [toNat_ushiftRight_32]
  exact Nat.div_lt_of_lt_mul w.isLt

/-- The schoolbook identity of R132, whose four partial products each fit a word. -/
theorem partial_products_eq_mul (a b : Word) :
    ((a >>> 32) * (b >>> 32)).toNat * 2 ^ 64
        + (((a &&& 0xFFFFFFFF#64) * (b >>> 32)).toNat + ((a >>> 32) * (b &&& 0xFFFFFFFF#64)).toNat) * 2 ^ 32
        + ((a &&& 0xFFFFFFFF#64) * (b &&& 0xFFFFFFFF#64)).toNat =
      a.toNat * b.toNat := by
  have low := toNat_and_mask32_lt
  have high := toNat_ushiftRight_32_lt
  rw [toNat_mul_of_lt_two_pow_32 _ _ (high a) (high b), toNat_mul_of_lt_two_pow_32 _ _ (low a) (high b),
    toNat_mul_of_lt_two_pow_32 _ _ (high a) (low b), toNat_mul_of_lt_two_pow_32 _ _ (low a) (low b)]
  simp only [toNat_and_mask32, toNat_ushiftRight_32]
  conv_rhs => rw [← Nat.div_add_mod a.toNat (2 ^ 32), ← Nat.div_add_mod b.toNat (2 ^ 32)]
  ring

/-- Settles O42: the columns add up the partial products, whose sum is the product and fits 128 bits. -/
theorem partialProductsGiveTheProduct : Obligations.PartialProductsGiveTheProduct := by
  intro a b
  have hsum := partial_products_eq_mul a b
  have hfits : a.toNat * b.toNat < 2 ^ 64 * 2 ^ 64 := Nat.mul_lt_mul'' a.isLt b.isLt
  rw [mulWide_eq_addColumns, addColumns_eq_sum _ _ _ _ (hsum ▸ hfits), hsum]

end Sys2Proof.Proofs

/-! ### The realisation of the division (43_wide128.md R133)

A guessed digit is never too low, and the test of the correction loop says exactly whether it is too high. With a
normalised divisor the guess is at most two too high, so that two corrections reach the digit of long division. -/

namespace Sys2Proof.Proofs

open Sys2Proof.Machine Sys2Proof.Laws

section Digit

variable {un vn1 vn0 next : Nat}

/-- With `rhat` the running remainder of the guess, R133's test compares `un:next` with `q` times the whole divisor: it
drops the multiple of `vn1` from both sides. -/
theorem correction_test_iff (q rhat : Nat) (hrhat : q * vn1 + rhat = un) :
    2 ^ 32 * rhat + next < q * vn0 ↔ un * 2 ^ 32 + next < q * (vn1 * 2 ^ 32 + vn0) := by
  have hsplit : q * (vn1 * 2 ^ 32 + vn0) = q * vn1 * 2 ^ 32 + q * vn0 := by ring
  rw [hsplit, ← hrhat]
  omega

/-- One turn of the loop: the guess stands. -/
theorem correctDigit_keep {q rhat : Nat} (fuel : Nat) (h : ¬(2 ^ 32 ≤ q ∨ 2 ^ 32 * rhat + next < q * vn0)) :
    correctDigit vn1 vn0 next (fuel + 1) (q, rhat) = (q, rhat) := by
  rw [correctDigit, if_neg h]

/-- One turn of the loop: the guess is corrected, and the running remainder ends the loop. -/
theorem correctDigit_break {q rhat : Nat} (fuel : Nat) (h : 2 ^ 32 ≤ q ∨ 2 ^ 32 * rhat + next < q * vn0)
    (hrhat : 2 ^ 32 ≤ rhat + vn1) :
    correctDigit vn1 vn0 next (fuel + 1) (q, rhat) = (q - 1, rhat + vn1) := by
  rw [correctDigit, if_pos h, if_pos hrhat]

/-- One turn of the loop: the guess is corrected, and the loop goes on. -/
theorem correctDigit_again {q rhat : Nat} (fuel : Nat) (h : 2 ^ 32 ≤ q ∨ 2 ^ 32 * rhat + next < q * vn0)
    (hrhat : ¬2 ^ 32 ≤ rhat + vn1) :
    correctDigit vn1 vn0 next (fuel + 1) (q, rhat) = correctDigit vn1 vn0 next fuel (q - 1, rhat + vn1) := by
  rw [correctDigit, if_pos h, if_neg hrhat]

/-- A running remainder that ends the loop covers the low product, so that the guess is not too high. -/
theorem not_too_high_of_break {q rhat : Nat} (hq : q ≤ 2 ^ 32) (hv0 : vn0 < 2 ^ 32) (hrhat : 2 ^ 32 ≤ rhat) :
    ¬2 ^ 32 * rhat + next < q * vn0 := by
  have hlow : q * vn0 ≤ 2 ^ 32 * 2 ^ 32 := Nat.mul_le_mul hq hv0.le
  omega

/-- A loop that starts at or above `digit`, and no further above it than it has corrections, ends at `digit`, when its
test tells of every guess whether it is too high. The bound on `q` makes an early end exact. -/
theorem correctDigit_eq_of_test (hv0 : vn0 < 2 ^ 32) (digit : Nat) (hdigit : digit < 2 ^ 32)
    (htest : ∀ q rhat, q * vn1 + rhat = un → (2 ^ 32 * rhat + next < q * vn0 ↔ digit < q))
    (fuel q rhat : Nat) (hrhat : q * vn1 + rhat = un) (hq : q ≤ 2 ^ 32 + 1) (hlow : digit ≤ q)
    (hhigh : q ≤ digit + fuel) : (correctDigit vn1 vn0 next fuel (q, rhat)).1 = digit := by
  induction fuel generalizing q rhat with
  | zero => exact Nat.le_antisymm hhigh hlow
  | succ fuel ih =>
    have hcorrect := htest q rhat hrhat
    by_cases hguess : digit < q
    · have htrue : 2 ^ 32 ≤ q ∨ 2 ^ 32 * rhat + next < q * vn0 := .inr (hcorrect.mpr hguess)
      have hrhat' : (q - 1) * vn1 + (rhat + vn1) = un := by
        rw [← hrhat, ← Nat.sub_add_cancel (Nat.one_le_of_lt hguess), Nat.add_sub_cancel]
        ring
      by_cases hbreak : 2 ^ 32 ≤ rhat + vn1
      · have hexact := not_too_high_of_break (next := next) (q := q - 1) (by omega) hv0 hbreak
        rw [htest _ _ hrhat'] at hexact
        rw [correctDigit_break fuel htrue hbreak]
        exact Nat.le_antisymm (not_lt.mp hexact) (Nat.le_sub_one_of_lt hguess)
      · rw [correctDigit_again fuel htrue hbreak]
        exact ih (q - 1) (rhat + vn1) hrhat' (by omega) (by omega) (by omega)
    · rw [correctDigit_keep fuel (by rw [hcorrect]; omega)]
      exact Nat.le_antisymm (not_lt.mp hguess) hlow

/-- Knuth's bounds on a guess from the top half of a normalised divisor. -/
theorem guess_bounds (hnorm : 2 ^ 31 ≤ vn1) (hv0 : vn0 < 2 ^ 32) (hun : un < vn1 * 2 ^ 32 + vn0)
    (hnext : next < 2 ^ 32) :
    (un * 2 ^ 32 + next) / (vn1 * 2 ^ 32 + vn0) ≤ un / vn1 ∧
      un / vn1 ≤ (un * 2 ^ 32 + next) / (vn1 * 2 ^ 32 + vn0) + 2 ∧ un / vn1 ≤ 2 ^ 32 + 1 := by
  have hguess : un / vn1 * vn1 ≤ un := Nat.div_mul_le_self un vn1
  refine ⟨?_, ?_, ?_⟩
  · rw [Nat.le_div_iff_mul_le (by omega)]
    have hdigit := Nat.div_mul_le_self (un * 2 ^ 32 + next) (vn1 * 2 ^ 32 + vn0)
    rw [mul_add, ← mul_assoc] at hdigit
    omega
  · have hlow : un / vn1 * vn0 ≤ un / vn1 * (2 * vn1) := Nat.mul_le_mul_left _ (by omega)
    rw [← Nat.sub_le_iff_le_add, Nat.le_div_iff_mul_le (by omega), Nat.sub_mul, mul_add, ← mul_assoc]
    rw [mul_left_comm] at hlow
    omega
  · have hlt : un / vn1 < 2 ^ 32 + 2 := by
      rw [Nat.div_lt_iff_lt_mul (by omega)]
      omega
    omega

/-- The corrected guess is the digit of long division. -/
theorem quotientDigit_eq_div (hnorm : 2 ^ 31 ≤ vn1) (hv0 : vn0 < 2 ^ 32) (hun : un < vn1 * 2 ^ 32 + vn0)
    (hnext : next < 2 ^ 32) :
    quotientDigit un vn1 vn0 next = (un * 2 ^ 32 + next) / (vn1 * 2 ^ 32 + vn0) := by
  have hpos : 0 < vn1 * 2 ^ 32 + vn0 := by omega
  have hdigit : (un * 2 ^ 32 + next) / (vn1 * 2 ^ 32 + vn0) < 2 ^ 32 := by
    rw [Nat.div_lt_iff_lt_mul hpos]
    omega
  have htest (q rhat : Nat) (hrhat : q * vn1 + rhat = un) :
      2 ^ 32 * rhat + next < q * vn0 ↔ (un * 2 ^ 32 + next) / (vn1 * 2 ^ 32 + vn0) < q := by
    rw [correction_test_iff q rhat hrhat, Nat.div_lt_iff_lt_mul hpos]
  obtain ⟨hlow, hhigh, hsize⟩ := guess_bounds hnorm hv0 hun hnext
  have hrhat : un / vn1 * vn1 + (un - un / vn1 * vn1) = un := Nat.add_sub_cancel' (Nat.div_mul_le_self un vn1)
  exact correctDigit_eq_of_test hv0 _ hdigit htest 2 _ _ hrhat hsize hlow hhigh

end Digit

/-- R133: the digit on the halves of a normalised divisor `vn`. -/
theorem quotientDigit_of_normalised (un vn next : Nat) (hnorm : 2 ^ 63 ≤ vn) (hvn : vn < 2 ^ 64) (hun : un < vn)
    (hnext : next < 2 ^ 32) :
    quotientDigit un (vn / 2 ^ 32) (vn % 2 ^ 32) next = (un * 2 ^ 32 + next) / vn := by
  have hsplit : vn / 2 ^ 32 * 2 ^ 32 + vn % 2 ^ 32 = vn := Nat.div_add_mod' vn (2 ^ 32)
  rw [quotientDigit_eq_div (by omega) (Nat.mod_lt _ (by decide)) (by omega) hnext, hsplit]

/-- The remainder after a digit, taken modulo 2^64 as R133 does. -/
theorem digit_remainder (n vn : Nat) (hpos : 0 < vn) (hvn : vn < 2 ^ 64) :
    ((n : Int) - (n / vn * vn : Nat)) % 2 ^ 64 = (n % vn : Nat) := by
  have hrem := Nat.mod_lt n hpos
  have hsplit := Nat.div_add_mod' n vn
  omega

/-- Long division by one digit more: the remainder of the leading digits takes the next one down. -/
theorem long_division_digit (n digit vn : Nat) (hpos : 0 < vn) :
    (n * 2 ^ 32 + digit) / vn = n / vn * 2 ^ 32 + (n % vn * 2 ^ 32 + digit) / vn ∧
      (n * 2 ^ 32 + digit) % vn = (n % vn * 2 ^ 32 + digit) % vn := by
  have hsplit : n * 2 ^ 32 + digit = vn * (n / vn * 2 ^ 32) + (n % vn * 2 ^ 32 + digit) := by
    conv_lhs => rw [← Nat.div_add_mod n vn]
    ring
  rw [hsplit, Nat.mul_add_div hpos, Nat.mul_add_mod]
  exact ⟨rfl, rfl⟩

/-- The two digits of R133 for a dividend `un:un10` and a normalised divisor: (quotient, remainder). -/
def divideNormalised (un un10 vn : Nat) : Nat × Nat :=
  let q1 := quotientDigit un (vn / 2 ^ 32) (vn % 2 ^ 32) (un10 / 2 ^ 32)
  let un21 : Int := (((un * 2 ^ 32 + un10 / 2 ^ 32 : Nat) : Int) - (q1 * vn : Nat)) % 2 ^ 64
  let q0 := quotientDigit un21.toNat (vn / 2 ^ 32) (vn % 2 ^ 32) (un10 % 2 ^ 32)
  let rem : Int := ((un21 * 2 ^ 32 + (un10 % 2 ^ 32 : Nat)) - (q0 * vn : Nat)) % 2 ^ 64
  (q1 * 2 ^ 32 + q0, rem.toNat)

/-- R133 normalises, divides by two digits, and shifts the remainder back. -/
theorem div128by64_eq_divideNormalised (u1 u0 v sh : Nat) (hsh : sh = leadingZeros (BitVec.ofNat 64 v)) :
    div128by64 u1 u0 v =
      (divideNormalised (if 0 < sh then (u1 * 2 ^ sh + u0 / 2 ^ (64 - sh)) % 2 ^ 64 else u1)
        (u0 * 2 ^ sh % 2 ^ 64) (v * 2 ^ sh % 2 ^ 64)).map id (· / 2 ^ sh) := by
  subst hsh
  rfl

/-- The two digits are those of long division, the remainder of the first leading the second. -/
theorem divideNormalised_eq (un un10 vn : Nat) (hnorm : 2 ^ 63 ≤ vn) (hvn : vn < 2 ^ 64) (hun : un < vn)
    (hun10 : un10 < 2 ^ 64) :
    divideNormalised un un10 vn = ((un * 2 ^ 64 + un10) / vn, (un * 2 ^ 64 + un10) % vn) := by
  have hpos : 0 < vn := by omega
  have hdividend : un * 2 ^ 64 + un10 = (un * 2 ^ 32 + un10 / 2 ^ 32) * 2 ^ 32 + un10 % 2 ^ 32 := by omega
  obtain ⟨hquotient, hremainder⟩ := long_division_digit (un * 2 ^ 32 + un10 / 2 ^ 32) (un10 % 2 ^ 32) vn hpos
  have hfirst := quotientDigit_of_normalised un vn (un10 / 2 ^ 32) hnorm hvn hun (by omega)
  have hsecond := quotientDigit_of_normalised ((un * 2 ^ 32 + un10 / 2 ^ 32) % vn) vn (un10 % 2 ^ 32) hnorm hvn
    (Nat.mod_lt _ hpos) (by omega)
  have hcast (r digit : Nat) : (r : Int) * 2 ^ 32 + digit = (r * 2 ^ 32 + digit : Nat) := by push_cast; rfl
  rw [hdividend, hquotient, hremainder, divideNormalised, hfirst, digit_remainder _ vn hpos hvn, Int.toNat_natCast,
    hsecond, hcast, digit_remainder _ vn hpos hvn, Int.toNat_natCast]

theorem leadingZeros_le (w : Word) : leadingZeros w ≤ 64 := by
  unfold leadingZeros
  split <;> omega

/-- Shifting out the leading zeros puts the top bit of the divisor at bit 63. -/
theorem normalised_bounds (v : Nat) (hpos : 0 < v) (hv : v < 2 ^ 64) :
    2 ^ 63 ≤ v * 2 ^ leadingZeros (BitVec.ofNat 64 v) ∧ v * 2 ^ leadingZeros (BitVec.ofNat 64 v) < 2 ^ 64 := by
  have htoNat : (BitVec.ofNat 64 v).toNat = v := Nat.mod_eq_of_lt hv
  have hne : BitVec.ofNat 64 v ≠ 0 := fun h => hpos.ne' (htoNat.symm.trans (congrArg BitVec.toNat h))
  have hlog : v.log2 ≤ 63 := Nat.lt_succ_iff.mp ((Nat.log2_lt hpos.ne').mpr hv)
  rw [leadingZeros, if_neg hne, htoNat]
  constructor
  · calc 2 ^ 63 = 2 ^ v.log2 * 2 ^ (63 - v.log2) := by rw [← pow_add, Nat.add_sub_cancel' hlog]
      _ ≤ v * 2 ^ (63 - v.log2) := Nat.mul_le_mul_right _ (Nat.log2_self_le hpos.ne')
  · calc v * 2 ^ (63 - v.log2) < 2 ^ (v.log2 + 1) * 2 ^ (63 - v.log2) :=
          Nat.mul_lt_mul_of_pos_right Nat.lt_log2_self (by positivity)
      _ = 2 ^ 64 := by rw [← pow_add, Nat.add_right_comm, Nat.add_sub_cancel' hlog]

/-- The two words R133 forms are the shifted dividend: the bits shifted out of the low word enter the high one. -/
theorem shifted_dividend (u1 u0 sh : Nat) (hsh : sh ≤ 64) :
    (u1 * 2 ^ sh + u0 / 2 ^ (64 - sh)) * 2 ^ 64 + u0 * 2 ^ sh % 2 ^ 64 = (u1 * 2 ^ 64 + u0) * 2 ^ sh := by
  have hhigh : u0 / 2 ^ (64 - sh) = u0 * 2 ^ sh / 2 ^ 64 := by
    rw [← Nat.pow_sub_mul_pow 2 hsh, Nat.mul_div_mul_right _ _ (by positivity)]
  rw [hhigh, add_mul, add_assoc, Nat.div_add_mod']
  ring

/-- The high word of the shifted dividend is below the shifted divisor, and so loses no bit. -/
theorem shifted_high_lt (u1 u0 v sh : Nat) (hlt : u1 < v) (hu0 : u0 < 2 ^ 64) (hsh : sh ≤ 64) :
    u1 * 2 ^ sh + u0 / 2 ^ (64 - sh) < v * 2 ^ sh := by
  have hlow : u0 / 2 ^ (64 - sh) < 2 ^ sh := by
    rw [Nat.div_lt_iff_lt_mul (by positivity), pow_mul_pow_sub 2 hsh]
    exact hu0
  have hhigh : (u1 + 1) * 2 ^ sh ≤ v * 2 ^ sh := Nat.mul_le_mul_right _ hlt
  rw [add_mul, one_mul] at hhigh
  omega

/-- Settles O43: the shifted operands have the same quotient, and their remainder is the shifted remainder. -/
theorem normalisedDivisionIsExact : Obligations.NormalisedDivisionIsExact := by
  intro u1 u0 v hlt hu0 hv
  obtain ⟨hnorm, hvn⟩ := normalised_bounds v (by omega) hv
  have hle : leadingZeros (BitVec.ofNat 64 v) ≤ 64 := leadingZeros_le _
  rw [div128by64_eq_divideNormalised u1 u0 v _ rfl]
  generalize leadingZeros (BitVec.ofNat 64 v) = sh at hnorm hvn hle ⊢
  have hhigh := shifted_high_lt u1 u0 v sh hlt hu0 hle
  have hun : (if 0 < sh then (u1 * 2 ^ sh + u0 / 2 ^ (64 - sh)) % 2 ^ 64 else u1) =
      u1 * 2 ^ sh + u0 / 2 ^ (64 - sh) := by
    split_ifs with hsh
    · exact Nat.mod_eq_of_lt (hhigh.trans hvn)
    · rw [Nat.eq_zero_of_not_pos hsh, Nat.div_eq_of_lt hu0, pow_zero, mul_one, add_zero]
  rw [hun, Nat.mod_eq_of_lt hvn, divideNormalised_eq _ _ _ hnorm hvn hhigh (Nat.mod_lt _ (by decide)),
    shifted_dividend u1 u0 sh hle, Prod.map_apply, id_eq, Nat.mul_div_mul_right _ _ (by positivity),
    Nat.mul_mod_mul_right, Nat.mul_div_cancel _ (by positivity)]

end Sys2Proof.Proofs

/-! ### A command that rounds an exact quotient once (40_rounding.md R80, R81, R85) -/

namespace Sys2Proof.Proofs

open Sys2Proof.Machine Sys2Proof.Laws

/-- An exact quotient of integers is an integer. -/
theorem not_dvd_of_quotient_ne (n d : ℤ) (hd : d ≠ 0) (h : ∀ v : ℤ, (n : ℝ) / d ≠ v) : ¬d ∣ n := by
  rintro ⟨v, rfl⟩
  refine h v ?_
  rw [Int.cast_mul, mul_div_cancel_left₀ _ (Int.cast_ne_zero.mpr hd)]

/-- A command that delivers the rounded `n / d` rounds the exact quotient once: Round is the textbook rounding. -/
theorem roundsOnce_of_resultOf {i : Instr} {s : State} {rm : RoundingMode} {n d : ℤ} {c : OverflowMode} (hd : d ≠ 0)
    (h : resultOf s.reg i = roundThenDeliver rm n d c) : RoundsOnce i (destOf i) ((n : ℝ) / d) rm c s := by
  have hends (v : ℤ) (hv : IsRoundingOf rm ((n : ℝ) / d) v) :=
    ends_of_resultOf_eq_deliver (w := wrap64 v)
      (h.trans (congrArg (deliverRounded · c) ((roundQuotient_ok_iff_isRoundingOf rm n d v hd).mpr hv))) rfl
  refine ⟨fun v hv => (hends v hv).1, fun v hv => (hends v hv).2, fun hrm hq => ?_⟩
  have herror : roundQuotient rm n d = .error .roundingNecessary :=
    (roundQuotient_error_iff ..).mpr ⟨rfl, hrm, not_dvd_of_quotient_ne n d hd hq⟩
  exact raisesCode_of_resultOf (h.trans (congrArg (deliverRounded · c) herror))

end Sys2Proof.Proofs

/-! ### DIVS and its special cases (44_division.md R140, R142) -/

namespace Sys2Proof.Proofs

open Sys2Proof.Machine Sys2Proof.Laws

theorem scaleFactor_cast (sc : Nat) : (scaleFactor sc : Int) = 10 ^ sc := Nat.cast_pow 10 sc

theorem scaleFactor_pos (sc : Nat) : 0 < scaleFactor sc := Nat.pow_pos (by decide)

/-- A legal scale factor is at most `10^18`. -/
theorem scaleFactor_le (sc : Nat) (hsc : sc ≤ 18) : scaleFactor sc ≤ 1000000000000000000 :=
  Nat.pow_le_pow_right (by decide) hsc

theorem divideScaled_zero (a : Int) (sc : Nat) (rm : RoundingMode) (c : OverflowMode) :
    divideScaled a 0 sc rm c = .error .divByZero := rfl

theorem divideScaled_of_ne (a b : Int) (sc : Nat) (rm : RoundingMode) (c : OverflowMode) (hb : b ≠ 0) :
    divideScaled a b sc rm c = roundThenDeliver rm (a * scaleFactor sc) b c := if_neg hb

/-- An integer quotient is delivered in every mode (R93 (a)). -/
theorem divideScaled_of_mul_eq (a b v : Int) (sc : Nat) (rm : RoundingMode) (c : OverflowMode) (hb : b ≠ 0)
    (h : v * b = a * 10 ^ sc) : divideScaled a b sc rm c = deliver v c := by
  rw [divideScaled_of_ne a b sc rm c hb, scaleFactor_cast, ← h, roundThenDeliver,
    roundQuotient_of_dvd rm (v * b) b hb (dvd_mul_left b v), Int.mul_ediv_cancel v hb, deliverRounded_ok]

section Divs

variable (rd rs1 rs2 : Reg) (sc : Nat) (rm : RoundingMode) (c : OverflowMode) (s : State)

/-- R140: a zero divisor raises, whatever the dividend and the modes. -/
theorem divs_raises_divByZero (hb : signedOf (s.reg rs2) = 0) :
    RaisesCode (.divs rd rs1 rs2 sc rm c) 2#3 0b00010#5 s := by
  refine raisesCode_of_resultOf (i := .divs rd rs1 rs2 sc rm c) (e := .divByZero) ?_
  rw [resultOf, hb]
  exact divideScaled_zero _ sc rm c

/-- The two ends of DIVS on an integer quotient `v`, whose pattern is `w`. -/
theorem divs_ends_of_mul_eq {v : Int} {w : Word} (hb : signedOf (s.reg rs2) ≠ 0)
    (h : v * signedOf (s.reg rs2) = signedOf (s.reg rs1) * 10 ^ sc) (hw : wrap64 v = w) :
    ((c = .unchecked ∨ (minValue ≤ v ∧ v ≤ maxValue)) → CompletesWith (.divs rd rs1 rs2 sc rm c) rd w s)
      ∧ (c = .checked → ¬(minValue ≤ v ∧ v ≤ maxValue) → RaisesCode (.divs rd rs1 rs2 sc rm c) 1#3 0b00001#5 s) :=
  ends_of_resultOf_eq_deliver (i := .divs rd rs1 rs2 sc rm c) (divideScaled_of_mul_eq _ _ v sc rm c hb h) hw

end Divs

/-- Settles O44, by the divisor: DIVS delivers the rounded quotient of `a * 10^s` by `b`. -/
theorem divsRoundsTheExactQuotientOnce : Obligations.DivsRoundsTheExactQuotientOnce := by
  intro rd rs1 rs2 sc rm c s _
  refine ⟨fun hb => divs_raises_divByZero rd rs1 rs2 sc rm c s (congrArg signedOf hb), fun hb => ?_⟩
  have hdivisor := signedOf_ne_zero _ hb
  have hround := roundsOnce_of_resultOf (i := .divs rd rs1 rs2 sc rm c) hdivisor
    (divideScaled_of_ne (signedOf (s.reg rs1)) _ sc rm c hdivisor)
  rwa [scaleFactor_cast, Int.cast_mul, Int.cast_pow, Int.cast_ofNat] at hround

/-- A legal power of ten and its negation lie in the signed 64-bit range. -/
theorem ten_pow_inRange (sc : Nat) (hsc : sc ≤ 18) :
    (minValue ≤ 10 ^ sc ∧ 10 ^ sc ≤ maxValue) ∧ minValue ≤ -10 ^ sc ∧ -10 ^ sc ≤ maxValue := by
  have hpos := scaleFactor_pos sc
  have hle := scaleFactor_le sc hsc
  rw [← scaleFactor_cast]
  unfold minValue maxValue
  omega

/-- Settles O45: in every row but the first the exact quotient is an integer `v`, with `v * b = a * 10^s`. -/
theorem divsSpecialCases : Obligations.DivsSpecialCases := by
  rintro rd rs1 rs2 sc rm c s a b hsc ha hb
  change a = signedOf (s.reg rs1) at ha
  change b = signedOf (s.reg rs2) at hb
  have ends {v : Int} {w : Word} (hne : b ≠ 0) (h : v * b = a * 10 ^ sc) (hw : wrap64 v = w) :=
    divs_ends_of_mul_eq rd rs1 rs2 sc rm c s (hb ▸ hne) (ha ▸ hb ▸ h) hw
  have hpow : (10 : Int) ^ sc ≠ 0 := pow_ne_zero sc (by decide)
  have hrange : minValue ≤ a ∧ a ≤ maxValue := ha ▸ signedOf_bounds (s.reg rs1)
  have hneg : minValue ≤ -a ∧ -a ≤ maxValue ↔ a ≠ minValue := by
    unfold minValue maxValue at *
    omega
  obtain ⟨hone, hminusOne⟩ := ten_pow_inRange sc hsc
  have hten : wrap64 (10 ^ sc) = BitVec.ofNat 64 (10 ^ sc) := scaleFactor_cast sc ▸ wrap64_natCast (scaleFactor sc)
  have hminusTen : wrap64 (-10 ^ sc) = -BitVec.ofNat 64 (10 ^ sc) := by rw [← hten, wrap64, BitVec.ofInt_neg]; rfl
  have hself : wrap64 a = s.reg rs1 := ha ▸ wrap64_signedOf _
  have hnegSelf : wrap64 (-a) = -s.reg rs1 := ha ▸ wrap64_neg _
  have byOne (h : b = 10 ^ sc) := ends (v := a) (h ▸ hpow) (by rw [h]) hself
  have byMinusOne (h : b = -10 ^ sc) := ends (v := -a) (h ▸ neg_ne_zero.mpr hpow) (by rw [h, neg_mul_neg]) hnegSelf
  have byRawUnit (h : b = 1 ∨ b = -1) := ends (v := b * a * 10 ^ sc) (by omega)
    (by rcases h with rfl | rfl <;> ring) rfl
  refine ⟨fun h => ?_, fun h hne => ?_, fun h => (byOne h).1 (.inr hrange),
    fun h hfits => (byMinusOne h).1 (hfits.imp_right hneg.mpr), fun h hc hmin => ?_,
    fun h => (byRawUnit h).1, fun h => (byRawUnit h).2, fun h hne => ?_, fun h hne => ?_⟩
  · exact divs_raises_divByZero rd rs1 rs2 sc rm c s (hb ▸ h)
  · exact (ends (v := 0) hne (by rw [h, zero_mul, zero_mul]) rfl).1 (.inr (by decide))
  · exact (byMinusOne h).2 hc (mt hneg.mp (not_not.mpr hmin))
  · exact (ends hne (by rw [h, mul_comm]) hten).1 (.inr hone)
  · exact (ends hne (by rw [h]; ring) hminusTen).1 (.inr hminusOne)

end Sys2Proof.Proofs

/-! ### The realisation of DIVS (44_division.md R141)

Each of the three paths computes the truncated quotient and the discarded part of the exact `a * 10^s / b`, which is what
`roundQuotient_eq` rounds. -/

namespace Sys2Proof.Proofs

open Sys2Proof.Machine Sys2Proof.Laws

/-- Step 2 finds the exponent of a power of ten. -/
theorem eq_scaleFactor_of_powerOfTenExponent {d k : Nat} (h : powerOfTenExponent d = some k) : d = scaleFactor k :=
  beq_iff_eq.mp (List.find?_some (p := fun k => d == scaleFactor k) h)

/-- Step 2: the sign of the divisor moves to the dividend. -/
theorem roundQuotient_sign_mul_natAbs (rm : RoundingMode) (n d : Int) (hd : d ≠ 0) :
    roundQuotient rm (d.sign * n) d.natAbs = roundQuotient rm n d := by
  rcases lt_or_gt_of_ne hd with h | h
  · rw [Int.sign_eq_neg_one_of_neg h, Int.ofNat_natAbs_of_nonpos h.le, neg_one_mul, roundQuotient_neg_neg rm n d hd]
  · rw [Int.sign_eq_one_of_pos h, Int.natAbs_of_nonneg h.le, one_mul]

/-- The sign from the signs of the parts is that of the product, for a dividend that is not zero. -/
theorem signOfQuotient_eq (n d : Int) (hn : n ≠ 0) (hd : d ≠ 0) : signOfQuotient n d = signOfInt (n * d) := by
  have hneg : (n < 0 ↔ ¬d < 0) ↔ n * d < 0 := by
    rw [mul_neg_iff]
    omega
  simp only [signOfQuotient, signOfInt, hneg]

/-- Steps 3 and 4 round a truncated quotient by the signs of its parts; the sign of a zero dividend does not matter. -/
theorem roundQuotient_eq_signOfQuotient (rm : RoundingMode) (n d : Int) (hd : d ≠ 0) :
    roundQuotient rm n d =
      addIncrement rm (signOfQuotient n d) (n.tdiv d) (classify (n.natAbs % d.natAbs) d.natAbs) := by
  rw [roundQuotient_eq rm n d hd]
  rcases eq_or_ne n 0 with rfl | hn
  · simp only [addIncrement, (classify_mod_eq_zero_iff 0 d).mpr (dvd_zero d), increment_zero]
  · rw [signOfQuotient_eq n d hn hd]

/-- The remainder steps 3 and 4 form from a truncated quotient. -/
theorem natAbs_sub_tdiv_mul (n d : Int) : (n - n.tdiv d * d).natAbs = n.natAbs % d.natAbs := by
  rw [mul_comm, ← Int.tmod_def, Int.natAbs_tmod]

/-- Zero is always on the direct path of step 3. -/
theorem minIntegral_le_zero_le_maxIntegral (sc : Nat) : minIntegral sc ≤ 0 ∧ 0 ≤ maxIntegral sc := by
  have hpow : (0 : Int) ≤ 10 ^ sc := pow_nonneg (by decide) sc
  refine ⟨?_, Int.tdiv_nonneg (by decide) hpow⟩
  rw [minIntegral, minValue, Int.neg_tdiv]
  exact neg_nonpos.mpr (Int.tdiv_nonneg (by decide) hpow)

/-- A positive factor of the dividend does not change the sign of the quotient. -/
theorem signOfQuotient_mul_pos (n d f : Int) (hf : 0 < f) : signOfQuotient (n * f) d = signOfQuotient n d := by
  simp only [signOfQuotient, mul_neg_iff, hf, hf.not_gt, and_true, and_false, false_or]

/-- Step 4: the wide product of a remainder and a scale factor, divided by the divisor. -/
theorem div128by64_mulWide (r f v : Nat) (hr : r < v) (hv : v < 2 ^ 64) (hf : f < 2 ^ 64) :
    div128by64 (unsignedOf (mulWide (BitVec.ofNat 64 r) (BitVec.ofNat 64 f)).1)
        (unsignedOf (mulWide (BitVec.ofNat 64 r) (BitVec.ofNat 64 f)).2) v = (r * f / v, r * f % v) := by
  have hproduct := partialProductsGiveTheProduct (BitVec.ofNat 64 r) (BitVec.ofNat 64 f)
  rw [BitVec.toNat_ofNat, BitVec.toNat_ofNat, Nat.mod_eq_of_lt (hr.trans hv), Nat.mod_eq_of_lt hf] at hproduct
  generalize mulWide (BitVec.ofNat 64 r) (BitVec.ofNat 64 f) = p at hproduct ⊢
  have hhigh : p.1.toNat < v := by
    have hbound : r * f < v * 2 ^ 64 := Nat.mul_lt_mul'' hr hf
    omega
  exact hproduct ▸ normalisedDivisionIsExact _ _ v hhigh p.2.isLt hv

/-- Step 4 on magnitudes: dividing, then scaling the remainder and dividing again, is scaling first. -/
theorem div_mul_add_mod_mul_div (m v f : Nat) (hv : 0 < v) :
    m / v * f + m % v * f / v = m * f / v ∧ m % v * f % v = m * f % v := by
  have hsplit : m * f = m % v * f + v * (m / v * f) := by
    conv_lhs => rw [← Nat.mod_add_div m v]
    ring
  rw [hsplit, Nat.add_mul_div_left _ _ hv, Nat.add_mul_mod_self_left]
  exact ⟨add_comm _ _, rfl⟩

/-- Step 4: the two parts of the quotient, with the sign of `n / d`, are the truncated scaled quotient. -/
theorem tdiv_mul_add_signValue_mul (n d : Int) (f : Nat) (hn : n ≠ 0) (hd : d ≠ 0) (hf : 0 < f) :
    n.tdiv d * f + signValue (signOfQuotient n d) * ((n.natAbs % d.natAbs * f / d.natAbs : Nat) : Int) =
      (n * f).tdiv d := by
  have hf' : (0 : Int) < f := Int.natCast_pos.mpr hf
  obtain ⟨hmagnitude, -⟩ := div_mul_add_mod_mul_div n.natAbs d.natAbs f (Int.natAbs_pos.mpr hd)
  rw [← signValue_mul_natAbs_div n d hd, ← signValue_mul_natAbs_div (n * f) d hd, ← signOfQuotient_eq n d hn hd,
    ← signOfQuotient_eq (n * f) d (mul_ne_zero hn hf'.ne') hd, signOfQuotient_mul_pos n d f hf', Int.natAbs_mul,
    Int.natAbs_natCast, ← hmagnitude]
  push_cast
  ring

section Paths

variable (a b : Int) (sc : Nat) (rm : RoundingMode) (c : OverflowMode)

/-- Step 2: the divisor is a power of ten, with its sign. -/
theorem divideScaledSplit_of_powerOfTen (k : Nat) (hk : powerOfTenExponent b.natAbs = some k) (hb : b ≠ 0) :
    divideScaledSplit a b sc rm c = divideScaled a b sc rm c := by
  rw [divideScaled_of_ne a b sc rm c hb, roundThenDeliver, ← roundQuotient_sign_mul_natAbs rm _ b hb,
    eq_scaleFactor_of_powerOfTenExponent hk, ← mul_assoc, divideScaledSplit, hk]
  rfl

/-- Step 3: the scaled dividend is divided directly. -/
theorem divideScaledSplit_of_direct (hk : powerOfTenExponent b.natAbs = none)
    (ha : minIntegral sc ≤ a ∧ a ≤ maxIntegral sc) (hb : b ≠ 0) :
    divideScaledSplit a b sc rm c = divideScaled a b sc rm c := by
  rw [divideScaled_of_ne a b sc rm c hb, roundThenDeliver, roundQuotient_eq_signOfQuotient rm _ b hb,
    ← natAbs_sub_tdiv_mul, divideScaledSplit, hk]
  exact if_pos ha

/-- Step 4: the integral part is divided off first, and the scaled remainder needs 128 bits. -/
theorem divideScaledSplit_of_wide (hk : powerOfTenExponent b.natAbs = none)
    (ha : ¬(minIntegral sc ≤ a ∧ a ≤ maxIntegral sc)) (hb : b ≠ 0) (hb64 : b.natAbs < 2 ^ 64)
    (hf64 : scaleFactor sc < 2 ^ 64) : divideScaledSplit a b sc rm c = divideScaled a b sc rm c := by
  have hne : a ≠ 0 := by
    rintro rfl
    exact ha (minIntegral_le_zero_le_maxIntegral sc)
  have hf := scaleFactor_pos sc
  have hpos := Int.natAbs_pos.mpr hb
  have hwide := div128by64_mulWide (a.natAbs % b.natAbs) (scaleFactor sc) b.natAbs (Nat.mod_lt _ hpos) hb64 hf64
  obtain ⟨-, hrem⟩ := div_mul_add_mod_mul_div a.natAbs b.natAbs (scaleFactor sc) hpos
  rw [divideScaled_of_ne a b sc rm c hb, roundThenDeliver, roundQuotient_eq_signOfQuotient rm _ b hb,
    signOfQuotient_mul_pos a b _ (Int.natCast_pos.mpr hf), ← tdiv_mul_add_signValue_mul a b _ hne hb hf,
    Int.natAbs_mul, Int.natAbs_natCast, ← hrem, divideScaledSplit, hk]
  simp only [if_neg ha, natAbs_sub_tdiv_mul, hwide]

end Paths

/-- Settles O46, path by path. -/
theorem splitDivisionIsScaledDivision : Obligations.SplitDivisionIsScaledDivision := by
  intro x y sc rm c hsc hy
  have hb : signedOf y ≠ 0 := signedOf_ne_zero y hy
  have hb64 : (signedOf y).natAbs < 2 ^ 64 := by
    have := signedOf_bounds y
    omega
  have hf64 : scaleFactor sc < 2 ^ 64 := (scaleFactor_le sc hsc).trans_lt (by decide)
  change divideScaledSplit (signedOf x) (signedOf y) sc rm c = divideScaled (signedOf x) (signedOf y) sc rm c
  cases hk : powerOfTenExponent (signedOf y).natAbs with
  | some k => exact divideScaledSplit_of_powerOfTen _ _ sc rm c k hk hb
  | none =>
    by_cases ha : minIntegral sc ≤ signedOf x ∧ signedOf x ≤ maxIntegral sc
    · exact divideScaledSplit_of_direct _ _ sc rm c hk ha hb
    · exact divideScaledSplit_of_wide _ _ sc rm c hk ha hb hb64 hf64

end Sys2Proof.Proofs

/-! ### Dividing and multiplying back (44_division.md R143 (b)) -/

namespace Sys2Proof.Proofs

open Sys2Proof.Machine Sys2Proof.Laws

/-- A command that delivers `v` under CHECKED and answers 0 has written `v` itself. -/
theorem delivered_of_response_zero {i : Instr} {s t : State} {v : Int} (h : resultOf s.reg i = deliver v .checked)
    (hnext : exec i s = .next t) (hreply : t.reply = .response 0) :
    ∃ w, signedOf w = v ∧ t = s.complete (destOf i) w := by
  have ht : t = s.conclude (encode i) (destOf i) (deliver v .checked) :=
    Host.Outcome.next.inj (hnext.symm.trans (h ▸ exec_eq_conclude i s))
  obtain ⟨w, hw⟩ := (conclude_reply ..).mp (ht ▸ hreply)
  obtain ⟨rfl, hc⟩ := (deliver_ok_iff ..).mp hw
  have hrange := hc.resolve_left nofun
  exact ⟨wrap64 v, signedOf_wrap64 v ((inRange_iff v).mp hrange), by rw [ht, hw, conclude_ok]⟩

theorem divideScaled_down (a b : Int) (sc : Nat) (c : OverflowMode) (hb : b ≠ 0) :
    divideScaled a b sc .down c = deliver ((a * 10 ^ sc).tdiv b) c := by
  rw [divideScaled_of_ne a b sc .down c hb, scaleFactor_cast, roundThenDeliver, roundQuotient_down _ b hb,
    deliverRounded_ok]

theorem multiplyScaled_down (a b : Int) (sc : Nat) (c : OverflowMode) :
    multiplyScaled a b sc .down c = deliver ((a * b).tdiv (10 ^ sc)) c := by
  rw [multiplyScaled, scaleFactor_cast, roundThenDeliver, roundQuotient_down _ _ (pow_ne_zero sc (by decide)),
    deliverRounded_ok]

/-- Truncating division does not grow what is multiplied back. -/
theorem abs_tdiv_mul_le (n d : Int) : |n.tdiv d * d| ≤ |n| := by
  rw [abs_mul, Int.abs_eq_natAbs, Int.abs_eq_natAbs d, Int.abs_eq_natAbs n, Int.natAbs_tdiv]
  exact_mod_cast Nat.div_mul_le_self n.natAbs d.natAbs

/-- R143 (b) on integers: each of the two truncations discards a remainder below its divisor. -/
theorem tdiv_then_mul_tdiv_bound (a b f : Int) (hb : b ≠ 0) (hf : 0 < f) :
    |a - ((a * f).tdiv b * b).tdiv f| * f < |b| + f ∧ |((a * f).tdiv b * b).tdiv f| ≤ |a| := by
  have hshrink := abs_tdiv_mul_le (a * f) b
  have hrem := abs_tmod_lt (a * f) b hb
  have hsplit := Int.tmod_add_tdiv_mul (a * f) b
  generalize (a * f).tdiv b * b = n at *
  have hshrink' := abs_tdiv_mul_le n f
  have hrem' := abs_tmod_lt n f hf.ne'
  have hsplit' := Int.tmod_add_tdiv_mul n f
  rw [abs_of_pos hf] at hrem'
  constructor
  · calc |a - n.tdiv f| * f = |(a * f).tmod b + n.tmod f| := by
          rw [← abs_of_pos hf, ← abs_mul, abs_of_pos hf]
          congr 1
          linear_combination -hsplit - hsplit'
      _ ≤ |(a * f).tmod b| + |n.tmod f| := abs_add_le _ _
      _ < |b| + f := add_lt_add hrem hrem'
  · refine le_of_mul_le_mul_right ?_ hf
    calc |n.tdiv f| * f = |n.tdiv f * f| := by rw [abs_mul, abs_of_pos hf]
      _ ≤ |a * f| := hshrink'.trans hshrink
      _ = |a| * f := by rw [abs_mul, abs_of_pos hf]

/-- Settles O47: without a raise both registers hold the truncated values, and `b` is still in its register when the
second command reads it. -/
theorem divideThenMultiplyBound : Obligations.DivideThenMultiplyBound := by
  rintro q1 q2 q3 q4 sc s t1 t2 a b _ hq ha hb hne hdivs hreply1 hmuls hreply2 rfl
  change a = signedOf (s.reg q1) at ha
  change b = signedOf (s.reg q2) at hb
  obtain ⟨w, hw, rfl⟩ := delivered_of_response_zero (i := .divs q3 q1 q2 sc .down .checked)
    (divideScaled_down _ _ sc .checked (hb ▸ hne)) hdivs hreply1
  obtain ⟨w', hw', rfl⟩ := delivered_of_response_zero (i := .muls q4 q3 q2 sc .down .checked)
    (multiplyScaled_down _ _ sc .checked) hmuls hreply2
  simp only [complete_reg, destOf, if_true, if_neg hq] at hw' ⊢
  rw [show w'.toInt = _ from hw', hw, ← ha, ← hb]
  exact tdiv_then_mul_tdiv_bound a b (10 ^ sc) hne (pow_pos (by decide) sc)

end Sys2Proof.Proofs

/-! ### MULS and SQRS and the special cases of MULS (45_multiplicative.md R150, R151, R153) -/

namespace Sys2Proof.Proofs

open Sys2Proof.Machine Sys2Proof.Laws

/-- A command that delivers a scaled product rounds the exact product once. -/
theorem roundsOnce_of_multiplyScaled {i : Instr} {s : State} {a b : Int} {sc : Nat} {rm : RoundingMode}
    {c : OverflowMode} (h : resultOf s.reg i = multiplyScaled a b sc rm c) :
    RoundsOnce i (destOf i) ((a : ℝ) * b / 10 ^ sc) rm c s := by
  have hround := roundsOnce_of_resultOf (Int.natCast_ne_zero.mpr (scaleFactor_pos sc).ne') h
  rwa [scaleFactor_cast, Int.cast_mul, Int.cast_pow, Int.cast_ofNat] at hround

/-- Settles O48: MULS delivers the scaled product of its two sources. -/
theorem mulsRoundsTheExactProductOnce : Obligations.MulsRoundsTheExactProductOnce := by
  intro rd rs1 rs2 sc rm c s _
  exact roundsOnce_of_multiplyScaled (i := .muls rd rs1 rs2 sc rm c) rfl

/-- Settles O49: SQRS delivers the scaled product of its source with itself. -/
theorem sqrsRoundsTheExactSquareOnce : Obligations.SqrsRoundsTheExactSquareOnce := by
  intro rd rs1 sc rm c s _
  rw [sq]
  exact roundsOnce_of_multiplyScaled (i := .sqrs rd rs1 sc rm c) rfl

/-- An integer scaled product is delivered in every mode (R93 (a)). -/
theorem multiplyScaled_of_mul_eq (a b v : Int) (sc : Nat) (rm : RoundingMode) (c : OverflowMode)
    (h : a * b = v * 10 ^ sc) : multiplyScaled a b sc rm c = deliver v c := by
  have hpow : (10 : Int) ^ sc ≠ 0 := pow_ne_zero sc (by decide)
  rw [multiplyScaled, scaleFactor_cast, h, roundThenDeliver,
    roundQuotient_of_dvd rm (v * 10 ^ sc) (10 ^ sc) hpow (dvd_mul_left _ v), Int.mul_ediv_cancel v hpow,
    deliverRounded_ok]

/-- The negation of a word leaves the signed range at MIN_VALUE only. -/
theorem neg_signedOf_inRange_iff (w : Word) :
    minValue ≤ -signedOf w ∧ -signedOf w ≤ maxValue ↔ signedOf w ≠ minValue := by
  rw [ne_eq, signedOf_eq_minValue_iff]
  exact (natAbs_and_neg_inRange_iff w).2.symm

section Muls

variable (rd rs1 rs2 : Reg) (sc : Nat) (rm : RoundingMode) (c : OverflowMode) (s : State)

/-- The two ends of MULS on an integer scaled product `v`, whose pattern is `w`. -/
theorem muls_ends_of_mul_eq {v : Int} {w : Word}
    (h : signedOf (s.reg rs1) * signedOf (s.reg rs2) = v * 10 ^ sc) (hw : wrap64 v = w) :
    ((c = .unchecked ∨ (minValue ≤ v ∧ v ≤ maxValue)) → CompletesWith (.muls rd rs1 rs2 sc rm c) rd w s)
      ∧ (c = .checked → ¬(minValue ≤ v ∧ v ≤ maxValue) → RaisesCode (.muls rd rs1 rs2 sc rm c) 1#3 0b00001#5 s) :=
  ends_of_resultOf_eq_deliver (i := .muls rd rs1 rs2 sc rm c) (multiplyScaled_of_mul_eq _ _ v sc rm c h) hw

/-- A factor of the number one: the other factor, in `other`, is in range. -/
theorem muls_completes_of_one (other : Reg)
    (h : signedOf (s.reg rs1) * signedOf (s.reg rs2) = signedOf (s.reg other) * 10 ^ sc) :
    CompletesWith (.muls rd rs1 rs2 sc rm c) rd (s.reg other) s :=
  (muls_ends_of_mul_eq rd rs1 rs2 sc rm c s h (wrap64_signedOf _)).1 (.inr (signedOf_bounds _))

/-- A factor of minus one: the negation of the other factor, in `other`, leaves the range at MIN_VALUE only. -/
theorem muls_ends_of_minus_one (other : Reg)
    (h : signedOf (s.reg rs1) * signedOf (s.reg rs2) = -signedOf (s.reg other) * 10 ^ sc) :
    ((c = .unchecked ∨ signedOf (s.reg other) ≠ minValue) →
        CompletesWith (.muls rd rs1 rs2 sc rm c) rd (-s.reg other) s)
      ∧ (c = .checked → signedOf (s.reg other) = minValue →
        RaisesCode (.muls rd rs1 rs2 sc rm c) 1#3 0b00001#5 s) := by
  have hends := muls_ends_of_mul_eq rd rs1 rs2 sc rm c s h (wrap64_neg _)
  rwa [neg_signedOf_inRange_iff, ne_eq, not_not] at hends

end Muls

/-- Settles O50: in the rows of zero, one and minus one the exact result is an integer; equal factors are SQRS by
definition, and a raw unit is rounded as any other factor. -/
theorem mulsSpecialCases : Obligations.MulsSpecialCases := by
  rintro rd rs1 rs2 sc rm c s a b hsc ha hb
  have hround := mulsRoundsTheExactProductOnce rd rs1 rs2 sc rm c s hsc
  rw [← ha, ← hb] at hround
  change a = signedOf (s.reg rs1) at ha
  change b = signedOf (s.reg rs2) at hb
  have byZero (h : a * b = 0) :=
    muls_ends_of_mul_eq (v := 0) rd rs1 rs2 sc rm c s (by rw [← ha, ← hb, h, zero_mul]) rfl
  have minusOneRight (h : b = -10 ^ sc) :=
    muls_ends_of_minus_one rd rs1 rs2 sc rm c s rs1 (by rw [← hb, h, mul_neg, neg_mul])
  have minusOneLeft (h : a = -10 ^ sc) :=
    muls_ends_of_minus_one rd rs1 rs2 sc rm c s rs2 (by rw [← ha, h, neg_mul_comm, mul_comm])
  rw [← ha] at minusOneRight
  rw [← hb] at minusOneLeft
  refine ⟨fun h => (byZero (mul_eq_zero.mpr h)).1 (.inr (by decide)), fun h => ?_, fun h => ?_,
    fun h => (minusOneRight h).1, fun h => (minusOneRight h).2, fun h => (minusOneLeft h).1,
    fun h => (minusOneLeft h).2, fun h => ?_, fun _ => ?_, fun _ => hround⟩
  · exact muls_completes_of_one rd rs1 rs2 sc rm c s rs1 (by rw [← hb, h])
  · exact muls_completes_of_one rd rs1 rs2 sc rm c s rs2 (by rw [← ha, h, mul_comm])
  · refine endAlike_of_resultOf_eq ?_
    rw [resultOf, resultOf, ← hb, ← h, ha]
  · rwa [mul_comm (b : ℝ)]

end Sys2Proof.Proofs

/-! ### The realisation of MULS up to scale 9 (45_multiplicative.md R152 (c)) -/

namespace Sys2Proof.Proofs

open Sys2Proof.Machine Sys2Proof.Laws

/-- A product over a positive scale is rounded by the signs of the factors; the sign of a zero product does not matter. -/
theorem roundQuotient_mul_eq_signOfQuotient (rm : RoundingMode) (a b f : Int) (hf : 0 < f) :
    roundQuotient rm (a * b) f =
      addIncrement rm (signOfQuotient a b) ((a * b).tdiv f) (classify ((a * b).natAbs % f.natAbs) f.natAbs) := by
  rw [roundQuotient_eq_signOfQuotient rm _ f hf.ne']
  by_cases hzero : a * b = 0
  · simp only [hzero, addIncrement, (classify_mod_eq_zero_iff 0 f).mpr (dvd_zero f), increment_zero]
  · obtain ⟨ha, hb⟩ := mul_ne_zero_iff.mp hzero
    have hsign : signOfQuotient (a * b) f = signOfInt (a * b) := by
      simp only [signOfQuotient, signOfInt, hf.not_gt, not_false_eq_true, iff_true]
    rw [hsign, signOfQuotient_eq a b ha hb]

/-- R152 (c): the integral cross terms and the truncated fractional one sum to the truncated scaled product. -/
theorem crossTerms_eq_tdiv (a b f : Int) (hf : f ≠ 0) :
    a.tdiv f * b.tdiv f * f + a.tdiv f * b.tmod f + a.tmod f * b.tdiv f + (a.tmod f * b.tmod f).tdiv f =
      (a * b).tdiv f := by
  have ha := Int.tmod_add_tdiv_mul a f
  have hb := Int.tmod_add_tdiv_mul b f
  have hfraction := Int.tmod_add_tdiv_mul (a.tmod f * b.tmod f) f
  have hproduct := Int.tmod_add_tdiv_mul (a * b) f
  rw [← Int.mul_tmod] at hfraction
  refine mul_right_cancel₀ hf ?_
  linear_combination hfraction - hproduct + b * ha + (a.tmod f + a.tdiv f * f) * hb

/-- R152 (c): the split finds the truncated quotient, the discarded part and the sign that R150 rounds by. -/
theorem multiplyScaledSplit_eq_multiplyScaled (a b : Int) (sc : Nat) (rm : RoundingMode) (c : OverflowMode) :
    multiplyScaledSplit a b sc rm c = multiplyScaled a b sc rm c := by
  have hf : (0 : Int) < scaleFactor sc := Int.natCast_pos.mpr (scaleFactor_pos sc)
  have hrem (n : Int) : n - n.tdiv (scaleFactor sc) * scaleFactor sc = n.tmod (scaleFactor sc) := by
    rw [Int.tmod_def, mul_comm]
  have hdiscarded : (a.tmod (scaleFactor sc) * b.tmod (scaleFactor sc)).natAbs % scaleFactor sc =
      (a * b).natAbs % scaleFactor sc := by
    simpa only [Int.natAbs_tmod, Int.natAbs_natCast] using
      congrArg Int.natAbs (Int.mul_tmod a b (scaleFactor sc)).symm
  rw [multiplyScaled, roundThenDeliver, roundQuotient_mul_eq_signOfQuotient rm a b _ hf, Int.natAbs_natCast,
    ← crossTerms_eq_tdiv a b _ hf.ne', ← hdiscarded, multiplyScaledSplit]
  simp only [hrem]

/-- Settles O51. On unbounded integers the split needs no bound on the scale; scale 9 is where the fractional product
still fits in 64 bits. -/
theorem splitMultiplicationIsScaledMultiplication : Obligations.SplitMultiplicationIsScaledMultiplication :=
  fun x y sc rm c _ => multiplyScaledSplit_eq_multiplyScaled x.toInt y.toInt sc rm c

end Sys2Proof.Proofs

/-! ### The restoring loop (46_root_shift.md R161) -/

namespace Sys2Proof.Proofs

open Sys2Proof.Machine Sys2Proof.Laws

/-- One iteration: the two radicand bits brought down are taken into the remainder, and the trial decides the new root
bit. -/
theorem sqrtLoop_succ (k n root rem : Nat) (h : sqrtLoop k (n / 4) = (root, rem)) :
    sqrtLoop (k + 1) n =
      if 4 * root + 1 ≤ 4 * rem + n % 4 then (2 * root + 1, 4 * rem + n % 4 - (4 * root + 1))
      else (2 * root, 4 * rem + n % 4) := by
  simp only [sqrtLoop, h, show rem * 4 + n % 4 = 4 * rem + n % 4 by omega, show root * 2 = 2 * root by omega,
    show 2 * root * 2 + 1 = 4 * root + 1 by omega]

/-- Settles O53, by induction on the pairs of bits: with `m = n / 4`, four times `m = root^2 + rem` is
`4 * m = (2 * root)^2 + 4 * rem`, and a successful trial moves `4 * root + 1` from the remainder to the square. -/
theorem restoringLoopIsTheIntegerRoot : Obligations.RestoringLoopIsTheIntegerRoot := by
  intro k
  induction k with
  | zero =>
    intro n hn
    obtain rfl : n = 0 := by omega
    exact ⟨rfl, le_rfl⟩
  | succ k ih =>
    intro n hn
    obtain ⟨hsum, hrem⟩ := ih (n / 4) (Nat.div_lt_of_lt_mul (by rwa [← pow_succ']))
    obtain ⟨⟨root, rem⟩, h⟩ : ∃ p, sqrtLoop k (n / 4) = p := ⟨_, rfl⟩
    rw [h] at hsum hrem
    rw [sqrtLoop_succ k n root rem h]
    dsimp only at hsum hrem
    have hdigits := Nat.div_add_mod n 4
    split
    · have hsquare : (2 * root + 1) * (2 * root + 1) = 4 * (root * root) + (4 * root + 1) := by ring
      dsimp only
      omega
    · have hsquare : 2 * root * (2 * root) = 4 * (root * root) := by ring
      dsimp only
      omega

end Sys2Proof.Proofs

/-! ### SQRTS (46_root_shift.md R160) -/

namespace Sys2Proof.Proofs

open Sys2Proof.Machine Sys2Proof.Laws

theorem rootPart_eq_zero_iff (root rem : Nat) : rootPart root rem = .zero ↔ rem = 0 := by
  unfold rootPart
  split_ifs <;> simp_all

/-- R160: against the integer root, the remainder says on which side of a half the root's fraction lies, because no
integer square lies at `(root + 1/2)^2 = root^2 + root + 1/4`. -/
theorem partOfFraction_rootPart (root rem : ℕ) (h : rem ≤ 2 * root) :
    PartOfFraction (rootPart root rem) (√((root * root + rem : ℕ) : ℝ) - root) := by
  have hroot : (0 : ℝ) ≤ root := root.cast_nonneg
  have hsmall : (rem : ℝ) ≤ 2 * root := by exact_mod_cast h
  have hhalfSquare : ((root : ℝ) + 1 / 2) ^ 2 = root * root + root + 1 / 4 := by ring
  have honeSquare : ((root : ℝ) + 1) ^ 2 = root * root + 2 * root + 1 := by ring
  have above (x : ℝ) (hx : (root + x) ^ 2 < root * root + rem) : x < √(root * root + rem : ℝ) - root :=
    lt_sub_iff_add_lt'.mpr (Real.lt_sqrt_of_sq_lt hx)
  have below (x : ℝ) (hpos : 0 < root + x) (hx : root * root + rem < (root + x) ^ 2) :
      √(root * root + rem : ℝ) - root < x := sub_lt_iff_lt_add'.mpr ((Real.sqrt_lt' hpos).mpr hx)
  rw [Nat.cast_add, Nat.cast_mul]
  unfold rootPart
  split_ifs with hzero hhalf
  · rw [hzero, Nat.cast_zero, add_zero, Real.sqrt_mul_self hroot]
    exact sub_self _
  · have hlow : (root : ℝ) + 1 ≤ rem := by exact_mod_cast hhalf
    exact ⟨above _ (by linarith), below _ (by linarith) (by linarith)⟩
  · have hpos : (0 : ℝ) < rem := by exact_mod_cast Nat.pos_of_ne_zero hzero
    have hhigh : (rem : ℝ) ≤ root := by exact_mod_cast not_lt.mp hhalf
    exact ⟨above _ (by linarith [sq (root : ℝ)]), below _ (by linarith) (by linarith)⟩

/-- Rounding a quantity that is not negative gives the truncated value, or the next one when a part was discarded. -/
theorem addIncrement_positive_cases {rm : RoundingMode} {t v : Int} {part : TruncatedPart}
    (h : addIncrement rm .positive t part = .ok v) : v = t ∨ (part ≠ .zero ∧ v = t + 1) := by
  rw [addIncrement_ok_iff] at h
  by_cases hpart : part = .zero
  · rw [hpart, increment_zero, Except.ok.injEq] at h
    omega
  · obtain hkept | hunit := increment_eq_or _ _ _ _ _ h
    · exact .inl (sub_eq_zero.mp hkept)
    · exact .inr ⟨hpart, sub_eq_iff_eq_add'.mp hunit⟩

theorem squareRootScaled_of_neg (a : Int) (sc : Nat) (rm : RoundingMode) (ha : a < 0) :
    squareRootScaled a sc rm = .error .invalidDomain := if_pos ha

theorem squareRootScaled_of_nonneg {a : Int} {sc root rem : Nat} (rm : RoundingMode) (ha : 0 ≤ a)
    (h : integerRoot (a.toNat * scaleFactor sc) = (root, rem)) :
    squareRootScaled a sc rm = (addIncrement rm .positive root (rootPart root rem)).map wrap64 := by
  rw [squareRootScaled, if_neg ha.not_gt, h]
  dsimp only
  cases addIncrement _ _ _ _ <;> rfl

/-- R160 at a legal scale: SQRTS rounds from the integer root of `n = a * 10^s` and its remainder. The radicand is below
`2^63 * 10^18`, so that the loop has bits enough and the root and its successor are in range. -/
theorem sqrts_root_and_remainder (rd rs1 : Reg) (sc n : Nat) (rm : RoundingMode) (s : State) (hsc : sc ≤ 18)
    (hn : (n : Int) = signedOf (s.reg rs1) * 10 ^ sc) :
    ∃ root rem : Nat, root * root + rem = n ∧ rem ≤ 2 * root ∧ (root : Int) < maxValue ∧
      resultOf s.reg (.sqrts rd rs1 sc rm) = (addIncrement rm .positive root (rootPart root rem)).map wrap64 := by
  have hpow : (0 : Int) < 10 ^ sc := pow_pos (by decide) sc
  have ha : 0 ≤ signedOf (s.reg rs1) := nonneg_of_mul_nonneg_left (hn ▸ Int.natCast_nonneg n) hpow
  have hradicand : (signedOf (s.reg rs1)).toNat * scaleFactor sc = n := by
    zify
    rw [Int.toNat_of_nonneg ha, scaleFactor_cast, hn]
  have hbound : n < 9223372036854775808 * 1000000000000000000 := by
    have hword := (signedOf_bounds (s.reg rs1)).2
    rw [← hradicand]
    exact Nat.mul_lt_mul_of_lt_of_le (by omega) (scaleFactor_le sc hsc) (by decide)
  obtain ⟨⟨root, rem⟩, hloop⟩ : ∃ p, integerRoot n = p := ⟨_, rfl⟩
  obtain ⟨hsum, hrem⟩ := restoringLoopIsTheIntegerRoot 64 n (by omega)
  rw [show sqrtLoop 64 n = (root, rem) from hloop] at hsum hrem
  rw [← hradicand] at hloop
  have hresult := squareRootScaled_of_nonneg rm ha hloop
  refine ⟨root, rem, hsum, hrem, ?_, hresult⟩
  by_contra hlarge
  have hsquare := Nat.mul_self_le_mul_self (show 9223372036854775807 ≤ root by unfold maxValue at hlarge; omega)
  dsimp only at hsum
  omega

/-- Settles O52: the exact root is the integer root and a discarded fraction, of which the remainder tells the part. -/
theorem sqrtsRoundsTheExactRootOnce : Obligations.SqrtsRoundsTheExactRootOnce := by
  rintro rd rs1 sc rm s _ hsc rfl
  refine ⟨fun ha => raisesCode_of_resultOf (i := .sqrts rd rs1 sc rm) (squareRootScaled_of_neg _ sc rm ha), ?_⟩
  rw [← forall_and]
  intro ha
  obtain ⟨n, hn⟩ := Int.eq_ofNat_of_zero_le (mul_nonneg ha (pow_nonneg (by decide : (0 : Int) ≤ 10) sc))
  obtain ⟨root, rem, rfl, hrem, hroot, hresult⟩ := sqrts_root_and_remainder rd rs1 sc n rm s hsc hn.symm
  have hpart := partOfFraction_rootPart root rem hrem
  have hsplit : √(((s.reg rs1).toInt : ℝ) * 10 ^ sc) =
      ((root : ℤ) : ℝ) + (√((root * root + rem : ℕ) : ℝ) - root) := by
    rw [Int.cast_natCast, add_sub_cancel]
    exact_mod_cast congrArg (fun z : ℤ => √(z : ℝ)) hn
  rw [hsplit]
  refine ⟨fun v hv => ?_, fun hrm hnone => ?_⟩
  · have hround := (addIncrement_ok_iff_isRoundingOf hpart root v rm (Int.natCast_nonneg root)).mpr hv
    refine ⟨?_, completesWith_of_resultOf (i := .sqrts rd rs1 sc rm) (by rw [hresult, hround]; rfl)⟩
    have := addIncrement_positive_cases hround
    omega
  · have hinexact : rootPart root rem ≠ .zero := fun hzero => by
      rw [hzero] at hpart
      exact hnone root (by rw [show _ - _ = (0 : ℝ) from hpart, add_zero])
    have herror := (addIncrement_error_iff rm .positive root _ _).mpr ⟨rfl, hrm, hinexact⟩
    exact raisesCode_of_resultOf (i := .sqrts rd rs1 sc rm) (by rw [hresult, herror]; rfl)

end Sys2Proof.Proofs

/-! ### The result of SQRTS brackets the radicand (46_root_shift.md R166) -/

namespace Sys2Proof.Proofs

open Sys2Proof.Machine Sys2Proof.Laws

/-- A command that answers 0 has written its result. -/
theorem completed_of_response_zero {i : Instr} {s t : State} (hnext : exec i s = .next t)
    (hreply : t.reply = .response 0) : ∃ w, resultOf s.reg i = .ok w ∧ t.reg (destOf i) = w := by
  obtain rfl : t = s.conclude (encode i) (destOf i) (resultOf s.reg i) :=
    Host.Outcome.next.inj (hnext.symm.trans (exec_eq_conclude i s))
  obtain ⟨w, hw⟩ := (conclude_reply ..).mp hreply
  exact ⟨w, hw, by rw [hw, conclude_ok, complete_reg, if_pos rfl]⟩

/-- DOWN and FLOOR keep the truncated value of a quantity that is not negative. -/
theorem addIncrement_positive_of_truncating {rm : RoundingMode} {t v : Int} {part : TruncatedPart}
    (hrm : rm = .down ∨ rm = .floor) (h : addIncrement rm .positive t part = .ok v) : v = t := by
  have hzero : increment rm .positive t part = .ok 0 := by
    rcases hrm with rfl | rfl <;> cases part <;> rfl
  rw [addIncrement_ok_iff, hzero, Except.ok.injEq] at h
  exact sub_eq_zero.mp h.symm

/-- R166 on the result `q` rounded from an integer root and its remainder: it is the root, or the root's successor when
the remainder is not zero. -/
theorem root_or_successor_brackets {root rem q : Nat} (hrem : rem ≤ 2 * root)
    (hq : q = root ∨ (rem ≠ 0 ∧ q = root + 1)) :
    root * root + rem < (q + 1) ^ 2 ∧ (q ≠ 0 → (q - 1) ^ 2 < root * root + rem) := by
  rcases hq with rfl | ⟨hne, rfl⟩
  · refine ⟨by linarith [show (q + 1) ^ 2 = q * q + 2 * q + 1 by ring], fun hpos => ?_⟩
    calc (q - 1) ^ 2 < q ^ 2 := Nat.pow_lt_pow_left (by omega) two_ne_zero
      _ ≤ q * q + rem := sq q ▸ Nat.le_add_right _ _
  · refine ⟨by linarith [show (root + 1 + 1) ^ 2 = root * root + 4 * root + 4 by ring], fun _ => ?_⟩
    rw [Nat.add_sub_cancel, sq]
    omega

/-- Settles O54: the response 0 says that the rounding gave a value, and that value is in range. -/
theorem sqrtsBracketsTheRadicand : Obligations.SqrtsBracketsTheRadicand := by
  rintro rd rs1 sc rm s t n q hsc hn hnext hreply hq
  obtain ⟨w, hw, hwritten⟩ := completed_of_response_zero (i := .sqrts rd rs1 sc rm) hnext hreply
  obtain ⟨root, rem, rfl, hrem, hroot, hresult⟩ := sqrts_root_and_remainder rd rs1 sc n rm s hsc hn
  rw [hresult] at hw
  cases hround : addIncrement rm .positive root (rootPart root rem) with
  | error e => rw [hround] at hw; nomatch hw
  | ok v =>
    rw [hround] at hw
    have hcases := addIncrement_positive_cases hround
    rw [ne_eq, rootPart_eq_zero_iff] at hcases
    obtain ⟨v, rfl⟩ : ∃ v' : Nat, v = v' := Int.eq_ofNat_of_zero_le (by omega)
    obtain rfl : q = v := by
      rw [hq, show t.reg rd = w from hwritten, ← Except.ok.inj hw, wrap64_natCast, BitVec.toNat_ofNat]
      unfold maxValue at hroot
      omega
    obtain ⟨habove, hbelow⟩ := root_or_successor_brackets (q := q) hrem (by omega)
    refine ⟨habove, hbelow, fun hrm => ?_⟩
    obtain rfl : q = root := by exact_mod_cast addIncrement_positive_of_truncating hrm hround
    exact sq q ▸ Nat.le_add_right _ _

end Sys2Proof.Proofs

/-! ### SHL and SHR (46_root_shift.md R162, R163, R165) -/

namespace Sys2Proof.Proofs

open Sys2Proof.Machine Sys2Proof.Laws

/-- The only multiple of 2^64 in range is 0, and every multiple wraps to 0: such values are delivered alike. -/
theorem deliver_congr_of_dvd {v w : Int} (c : OverflowMode) (hv : 2 ^ 64 ∣ v) (hw : 2 ^ 64 ∣ w) (h : v = 0 ↔ w = 0) :
    deliver v c = deliver w c := by
  obtain ⟨v, rfl⟩ := hv
  obtain ⟨w, rfl⟩ := hw
  have hrange : inRange (2 ^ 64 * v) = inRange (2 ^ 64 * w) := by
    rw [Bool.eq_iff_iff, inRange_iff, inRange_iff]
    unfold minValue maxValue
    omega
  have hwrap : wrap64 (2 ^ 64 * v) = wrap64 (2 ^ 64 * w) := by
    apply BitVec.eq_of_toInt_eq
    change signedOf _ = signedOf _
    rw [signedOf_wrap64_eq_ite, signedOf_wrap64_eq_ite]
    omega
  unfold deliver
  rw [hrange, hwrap]

/-- R165, corner case: a left shift by more than 64 ends as the shift by 64. -/
theorem deliver_mul_two_pow_of_le (u : Int) {k : Nat} (c : OverflowMode) (hk : 64 ≤ k) :
    deliver (u * 2 ^ 64) c = deliver (u * 2 ^ k) c := by
  refine deliver_congr_of_dvd c (dvd_mul_left _ u) ((pow_dvd_pow 2 hk).mul_left u) ?_
  simp only [mul_eq_zero, pow_eq_zero_iff', OfNat.ofNat_ne_zero, false_and, or_false]

/-- A quotient nearer to zero than a half is truncated to 0, and its discarded part is below a half. -/
theorem roundQuotient_of_two_mul_lt (rm : RoundingMode) {n d : Int} (h : 2 * (n.natAbs : Int) < d) :
    roundQuotient rm n d =
      addIncrement rm (signOfInt n) 0 (if n = 0 then .zero else .lessThanHalfNonzero) := by
  have hd : ¬d < 0 := by omega
  have hlt : n.natAbs < d.natAbs := by omega
  have htrunc : n.tdiv d = 0 := Int.natAbs_eq_zero.mp ((Int.natAbs_tdiv n d).trans (Nat.div_eq_of_lt hlt))
  rw [roundQuotient_eq rm n d (by omega), ← signOfInt_mul n d (by omega), if_neg hd, Nat.mod_eq_of_lt hlt, htrunc]
  congr 1
  split_ifs with hn
  · exact (classify_eq_zero_iff ..).mpr (Int.natAbs_eq_zero.mpr hn)
  · exact (classify_eq_less_iff ..).mpr ⟨Int.natAbs_ne_zero.mpr hn, by omega⟩

/-- R165, corner case: a right shift by more than 65 ends as the shift by 65. -/
theorem roundQuotient_two_pow_of_le (rm : RoundingMode) (w : Word) {k : Nat} (hk : 65 ≤ k) :
    roundQuotient rm (signedOf w) (2 ^ 65) = roundQuotient rm (signedOf w) (2 ^ k) := by
  have hlimit : 2 * ((signedOf w).natAbs : Int) < 2 ^ 65 := by
    have := signedOf_bounds w
    omega
  have hpow : (2 : Int) ^ 65 ≤ 2 ^ k := pow_le_pow_right₀ (by decide) hk
  rw [roundQuotient_of_two_mul_lt rm hlimit, roundQuotient_of_two_mul_lt rm (hlimit.trans_le hpow)]

theorem scale2At_natCast (u : Int) (k : Nat) (rm : RoundingMode) (c : OverflowMode) :
    scale2At u k rm c = deliver (u * 2 ^ k) c := if_pos (Int.natCast_nonneg k)

theorem roundThenDeliver_one (rm : RoundingMode) (u : Int) (c : OverflowMode) :
    roundThenDeliver rm u 1 c = deliver u c := by
  rw [roundThenDeliver, roundQuotient_of_dvd rm u 1 one_ne_zero (one_dvd u), Int.ediv_one, deliverRounded_ok]

theorem scale2At_neg_natCast (u : Int) (k : Nat) (rm : RoundingMode) (c : OverflowMode) :
    scale2At u (-k) rm c = roundThenDeliver rm u (2 ^ k) c := by
  unfold scale2At
  split_ifs with hk
  · obtain rfl : k = 0 := by omega
    rw [pow_zero, roundThenDeliver_one, Int.natCast_zero, neg_zero, Int.toNat_zero, pow_zero, mul_one]
  · rw [neg_neg, Int.toNat_natCast]

/-- R165 without its limits: on a register's value no amount is limited. -/
theorem scale2_eq_scale2At (w : Word) (n : Int) (rm : RoundingMode) (c : OverflowMode) :
    scale2 (signedOf w) n rm c = scale2At (signedOf w) n rm c := by
  unfold scale2
  by_cases hleft : 64 < n
  · lift n to Nat using by omega
    rw [clamp_of_gt _ _ _ (by decide) hleft, scale2At_natCast,
      ← deliver_mul_two_pow_of_le _ c (show 64 ≤ n by omega)]
    exact scale2At_natCast _ 64 rm c
  by_cases hright : n < -65
  · obtain ⟨k, rfl⟩ : ∃ k : Nat, n = -k := ⟨n.natAbs, by omega⟩
    rw [clamp_of_lt _ _ _ hright, scale2At_neg_natCast, roundThenDeliver,
      ← roundQuotient_two_pow_of_le rm w (show 65 ≤ k by omega)]
    exact scale2At_neg_natCast _ 65 rm c
  · rw [clamp_of_mem _ _ _ (by omega) (by omega)]

/-- A command that delivers Scale2 of a register's value rounds the exact value once. -/
theorem roundsOnce_of_scale2 {i : Instr} {s : State} {w : Word} {n : Int} {rm : RoundingMode} {c : OverflowMode}
    (h : resultOf s.reg i = scale2 (signedOf w) n rm c) :
    RoundsOnce i (destOf i) ((signedOf w : ℝ) * (2 : ℝ) ^ n) rm c s := by
  rw [scale2_eq_scale2At] at h
  obtain ⟨k, rfl | rfl⟩ := n.eq_nat_or_neg
  · have hround := roundsOnce_of_resultOf (rm := rm) one_ne_zero
      (h.trans ((scale2At_natCast ..).trans (roundThenDeliver_one rm _ c).symm))
    rwa [Int.cast_one, div_one, Int.cast_mul, Int.cast_pow, Int.cast_ofNat, ← zpow_natCast] at hround
  · have hround := roundsOnce_of_resultOf (pow_ne_zero k two_ne_zero) (h.trans (scale2At_neg_natCast ..))
    rwa [Int.cast_pow, Int.cast_ofNat, div_eq_mul_inv, ← zpow_natCast, ← zpow_neg] at hround

/-- Settles O55: both commands deliver Scale2, for the amount and for its mathematical negation. -/
theorem shiftsScaleByAnyPowerOfTwo : Obligations.ShiftsScaleByAnyPowerOfTwo := by
  rintro rd rs1 rs2 rm c s _ _ rfl rfl
  exact ⟨roundsOnce_of_scale2 (i := .shl rd rs1 rs2 rm c) rfl, roundsOnce_of_scale2 (i := .shr rd rs1 rs2 rm c) rfl⟩

end Sys2Proof.Proofs

/-! ### The realisations of the shifts (46_root_shift.md R164) -/

namespace Sys2Proof.Proofs

open Sys2Proof.Machine Sys2Proof.Laws

/-- More than `n` leading zeros are a value below `2^(63 - n)`. -/
theorem lt_leadingZeros_iff (w : Word) (n : Nat) (hn : n ≤ 63) : n < leadingZeros w ↔ w.toNat < 2 ^ (63 - n) := by
  unfold leadingZeros
  split_ifs with hw
  · have hpow : 0 < 2 ^ (63 - n) := Nat.two_pow_pos _
    rw [hw]
    exact iff_of_true (by omega) hpow
  · have hne : w.toNat ≠ 0 := fun h => hw (BitVec.eq_of_toNat_eq h)
    rw [← Nat.log2_lt hne]
    omega

/-- R164: at `2^63 = 2^(63 - n) * 2^n` the limits of the shifted value are limits of the value. -/
theorem mul_two_pow_inRange_iff (u : Int) (n : Nat) (hn : n ≤ 63) :
    minValue ≤ u * 2 ^ n ∧ u * 2 ^ n ≤ maxValue ↔ -2 ^ (63 - n) ≤ u ∧ u < 2 ^ (63 - n) := by
  have hpow : (0 : Int) < 2 ^ n := pow_pos (by decide) n
  have hsplit : (2 : Int) ^ (63 - n) * 2 ^ n = maxValue + 1 := pow_sub_mul_pow 2 hn
  have hlow : minValue = -2 ^ (63 - n) * 2 ^ n := by rw [neg_mul, hsplit]; rfl
  rw [← Int.lt_add_one_iff (b := maxValue), ← hsplit, hlow, mul_le_mul_iff_left₀ hpow, mul_lt_mul_iff_left₀ hpow]

theorem toNat_of_signedOf_nonneg (w : Word) (h : 0 ≤ signedOf w) : (w.toNat : Int) = signedOf w := by
  have hlow := (signedOf_nonneg_iff w).mp h
  exact (BitVec.toInt_eq_toNat_of_lt (by omega)).symm

theorem toNat_not_of_signedOf_neg (w : Word) (h : signedOf w < 0) : ((~~~w).toNat : Int) = -signedOf w - 1 := by
  have hhigh := mt (signedOf_nonneg_iff w).mpr h.not_ge
  have := w.isLt
  rw [signedOf, BitVec.toInt_eq_toNat_cond, BitVec.toNat_not]
  omega

/-- The complement of a negative value `u` is `-u - 1`, so its leading zeros measure the negative side of the range. -/
theorem shiftFits_iff (u : Word) (n : Nat) (hn : n ≤ 63) :
    shiftFits u n = true ↔ minValue ≤ signedOf u * 2 ^ n ∧ signedOf u * 2 ^ n ≤ maxValue := by
  have hpow : (0 : Int) < 2 ^ (63 - n) := pow_pos (by decide) _
  rw [mul_two_pow_inRange_iff _ n hn, shiftFits]
  split_ifs with hu
  · rw [decide_eq_true_iff, lt_leadingZeros_iff u n hn, ← Int.ofNat_lt, toNat_of_signedOf_nonneg u hu]
    push_cast
    omega
  · rw [decide_eq_true_iff, lt_leadingZeros_iff _ n hn, ← Int.ofNat_lt, toNat_not_of_signedOf_neg u (by omega)]
    push_cast
    omega

/-- The right shift truncates the magnitude, and the discarded bits are its remainder by `2^n`. -/
theorem shiftRightSplit_eq_scale2 (u : Word) (n : Nat) (rm : RoundingMode) (c : OverflowMode) :
    shiftRightSplit u n rm c = scale2 (signedOf u) (-n) rm c := by
  have hpos : (0 : Int) < 2 ^ n := pow_pos (by decide) n
  have hmagnitude : ((2 : Int) ^ n).natAbs = 2 ^ n := Int.natAbs_pow 2 n
  have hsign : signOfInt (signedOf u * 2 ^ n) = signOf u := by
    rw [← signOfInt_mul _ _ hpos.ne', if_neg hpos.not_gt]
    rfl
  have hdiscarded : (signedOf u).natAbs % 2 ^ n ≤ (signedOf u).natAbs := Nat.mod_le _ _
  have hbounds := signedOf_bounds u
  rw [scale2_eq_scale2At, scale2At_neg_natCast, roundThenDeliver, roundQuotient_eq rm _ _ hpos.ne',
    ← signValue_mul_natAbs_div _ _ hpos.ne', hsign, hmagnitude, shiftRightSplit,
    classifyPow2_eq_classify 66 _ n (by omega), Nat.shiftRight_eq_div_pow]

/-- Settles O56. The split needs no bound on the amount. -/
theorem shiftRealisationsAreExact : Obligations.ShiftRealisationsAreExact := fun u n rm c hn =>
  ⟨shiftFits_iff u n hn, fun _ => shiftRightSplit_eq_scale2 u n rm c⟩

end Sys2Proof.Proofs

/-! ### MULP10 and DIVP10 (47_pow10_additive.md R175 to R177) -/

namespace Sys2Proof.Proofs

open Sys2Proof.Machine Sys2Proof.Laws

/-- A command that delivers an integer rounds it once, in every mode. -/
theorem roundsOnce_of_deliver {i : Instr} {s : State} {v : Int} {c : OverflowMode} (rm : RoundingMode)
    (h : resultOf s.reg i = deliver v c) : RoundsOnce i (destOf i) (v : ℝ) rm c s := by
  have hround := roundsOnce_of_resultOf (rm := rm) one_ne_zero (h.trans (roundThenDeliver_one rm v c).symm)
  rwa [Int.cast_one, div_one] at hround

theorem scale10At_natCast (u : Int) (k : Nat) (rm : RoundingMode) (c : OverflowMode) :
    scale10At u k rm c = deliver (u * 10 ^ k) c := if_pos (Int.natCast_nonneg k)

theorem scale10At_neg_natCast (u : Int) (k : Nat) (rm : RoundingMode) (c : OverflowMode) :
    scale10At u (-k) rm c = roundThenDeliver rm u (10 ^ k) c := by
  unfold scale10At
  split_ifs with hk
  · obtain rfl : k = 0 := by omega
    rw [pow_zero, roundThenDeliver_one, Int.natCast_zero, neg_zero, Int.toNat_zero, pow_zero, mul_one]
  · rw [neg_neg, Int.toNat_natCast]

/-- R175: exponents past 64 end as 64, because `10^64` is a multiple of `2^64`. -/
theorem deliver_mul_ten_pow_of_le (u : Int) {k : Nat} (c : OverflowMode) (hk : 64 ≤ k) :
    deliver (u * 10 ^ 64) c = deliver (u * 10 ^ k) c := by
  have hdvd (j : Nat) (hj : 64 ≤ j) : (2 : Int) ^ 64 ∣ u * 10 ^ j :=
    ((pow_dvd_pow 2 hj).trans (pow_dvd_pow_of_dvd (by decide) j)).mul_left u
  refine deliver_congr_of_dvd c (hdvd 64 le_rfl) (hdvd k hk) ?_
  simp only [mul_eq_zero, pow_eq_zero_iff', OfNat.ofNat_ne_zero, false_and, or_false]

/-- R175: exponents below -20 end as -20, because twice a register's value is below `10^20`. -/
theorem roundQuotient_ten_pow_of_le (rm : RoundingMode) (w : Word) {k : Nat} (hk : 20 ≤ k) :
    roundQuotient rm (signedOf w) (10 ^ 20) = roundQuotient rm (signedOf w) (10 ^ k) := by
  have hlimit : 2 * ((signedOf w).natAbs : Int) < 10 ^ 20 := by
    have := signedOf_bounds w
    omega
  have hpow : (10 : Int) ^ 20 ≤ 10 ^ k := pow_le_pow_right₀ (by decide) hk
  rw [roundQuotient_of_two_mul_lt rm hlimit, roundQuotient_of_two_mul_lt rm (hlimit.trans_le hpow)]

/-- R175 without its limits: on a register's value no exponent is limited. -/
theorem scale10_eq_scale10At (w : Word) (n : Int) (rm : RoundingMode) (c : OverflowMode) :
    scale10 (signedOf w) n rm c = scale10At (signedOf w) n rm c := by
  unfold scale10
  by_cases hmul : 64 < n
  · lift n to Nat using by omega
    rw [clamp_of_gt _ _ _ (by decide) hmul, scale10At_natCast,
      ← deliver_mul_ten_pow_of_le _ c (show 64 ≤ n by omega)]
    exact scale10At_natCast _ 64 rm c
  by_cases hdiv : n < -20
  · obtain ⟨k, rfl⟩ : ∃ k : Nat, n = -k := ⟨n.natAbs, by omega⟩
    rw [clamp_of_lt _ _ _ hdiv, scale10At_neg_natCast, roundThenDeliver,
      ← roundQuotient_ten_pow_of_le rm w (show 20 ≤ k by omega)]
    exact scale10At_neg_natCast _ 20 rm c
  · rw [clamp_of_mem _ _ _ (by omega) (by omega)]

/-- A command that delivers Scale10 of a register's value rounds the exact value once. -/
theorem roundsOnce_of_scale10 {i : Instr} {s : State} {w : Word} {n : Int} {rm : RoundingMode} {c : OverflowMode}
    (h : resultOf s.reg i = scale10 (signedOf w) n rm c) :
    RoundsOnce i (destOf i) ((signedOf w : ℝ) * (10 : ℝ) ^ n) rm c s := by
  rw [scale10_eq_scale10At] at h
  obtain ⟨k, rfl | rfl⟩ := n.eq_nat_or_neg
  · have hround := roundsOnce_of_deliver rm (h.trans (scale10At_natCast ..))
    rwa [Int.cast_mul, Int.cast_pow, Int.cast_ofNat, ← zpow_natCast] at hround
  · have hround := roundsOnce_of_resultOf (pow_ne_zero k (by decide)) (h.trans (scale10At_neg_natCast ..))
    rwa [Int.cast_pow, Int.cast_ofNat, div_eq_mul_inv, ← zpow_natCast, ← zpow_neg] at hround

/-- Settles O57: both commands deliver Scale10, for the exponent and for its mathematical negation. -/
theorem powersOfTenScaleByAnyExponent : Obligations.PowersOfTenScaleByAnyExponent := by
  rintro rd rs1 rs2 rm c s _ _ rfl rfl
  exact ⟨roundsOnce_of_scale10 (i := .mulp10 rd rs1 rs2 rm c) rfl,
    roundsOnce_of_scale10 (i := .divp10 rd rs1 rs2 rm c) rfl⟩

end Sys2Proof.Proofs

/-! ### ADDS and SUBS (47_pow10_additive.md R178 to R180) -/

namespace Sys2Proof.Proofs

open Sys2Proof.Machine Sys2Proof.Laws

/-- R178, `s2 <= s`: every digit of the second addend has a place. -/
theorem addScaled_of_le (a b : Int) {sc sc2 : Nat} (rm : RoundingMode) (c : OverflowMode) (h : sc2 ≤ sc) :
    addScaled a b sc sc2 rm c = deliver (a + b * 10 ^ (sc - sc2)) c := if_pos h

/-- R178, `s2 > s`: the sum is formed in units of the second scale and rounded. -/
theorem addScaled_of_lt (a b : Int) {sc sc2 : Nat} (rm : RoundingMode) (c : OverflowMode) (h : sc < sc2) :
    addScaled a b sc sc2 rm c = roundThenDeliver rm (a * 10 ^ (sc2 - sc) + b) (10 ^ (sc2 - sc)) c :=
  if_neg h.not_ge

/-- A command that delivers AddScaled rounds the exact sum at the first scale once. -/
theorem roundsOnce_of_addScaled {i : Instr} {s : State} {a b : Int} {sc sc2 : Nat} {rm : RoundingMode}
    {c : OverflowMode} (h : resultOf s.reg i = addScaled a b sc sc2 rm c) :
    RoundsOnce i (destOf i) ((a : ℝ) + b * (10 : ℝ) ^ ((sc : ℤ) - sc2)) rm c s := by
  rcases le_or_gt sc2 sc with hle | hlt
  · rw [← Int.ofNat_sub hle, zpow_natCast]
    exact_mod_cast roundsOnce_of_deliver rm (h.trans (addScaled_of_le a b rm c hle))
  · have hpow : (10 : ℝ) ^ (sc2 - sc) ≠ 0 := pow_ne_zero _ (by norm_num)
    have hround := roundsOnce_of_resultOf (pow_ne_zero _ (by decide)) (h.trans (addScaled_of_lt a b rm c hlt))
    rw [← neg_sub, ← Int.ofNat_sub hlt.le, zpow_neg, zpow_natCast, ← div_eq_mul_inv]
    push_cast at hround
    rwa [add_div, mul_div_cancel_right₀ _ hpow] at hround

/-- Settles O58: both commands deliver AddScaled, for the second addend and for its mathematical negation. -/
theorem mixedScaleSumsRoundOnce : Obligations.MixedScaleSumsRoundOnce := by
  rintro rd rs1 rs2 sc sc2 rm c s _ _ _ _ rfl rfl
  have hsubs := roundsOnce_of_addScaled (i := .subs rd rs1 rs2 sc sc2 rm c) (s := s) rfl
  rw [Int.cast_neg, neg_mul, ← sub_eq_add_neg] at hsubs
  exact ⟨roundsOnce_of_addScaled (i := .adds rd rs1 rs2 sc sc2 rm c) rfl, hsubs⟩

end Sys2Proof.Proofs

/-! ### Adding from the perspective of the discarded digits (47_pow10_additive.md R181)

The exact sum is `t0 + bf / k`. Where `t0` and `bf` have one sign, `t0` and `|bf|` are its truncation and its discarded
part; where they differ, the truncation is one unit nearer to zero and the discarded part is `k - |bf|`, and the
exchanged mode gives the same result from `t0` and `|bf|`. -/

namespace Sys2Proof.Proofs

open Sys2Proof.Machine Sys2Proof.Laws

theorem signValue_oppositeSign (σ : Sign) : signValue (oppositeSign σ) = -signValue σ := by cases σ <;> rfl

/-- Round of a quantity given by its sign, the magnitude of its truncation and its discarded part. -/
theorem roundQuotient_of_parts (rm : RoundingMode) (σ : Sign) {m r k : Nat} (hr : 0 < r) (hrk : r < k) :
    roundQuotient rm (signValue σ * (m * k + r)) k = addIncrement rm σ (signValue σ * m) (classify r k) := by
  have hk : ¬(k : Int) < 0 := by omega
  have hnum : (0 : Int) < m * k + r := by positivity
  have hmagnitude : (signValue σ * (m * k + r)).natAbs = r + k * m := by
    rw [Int.natAbs_mul, show (signValue σ).natAbs = 1 by cases σ <;> rfl, one_mul]
    zify
    rw [abs_of_pos hnum]
    ring
  have hsign : signOfInt (signValue σ * (m * k + r)) = σ := by
    cases σ with
    | positive => exact if_neg (by rw [signValue, one_mul]; exact hnum.not_gt)
    | negative => exact if_pos (by rw [signValue, neg_one_mul]; exact neg_lt_zero.mpr hnum)
  rw [roundQuotient, if_neg hk, hsign, hmagnitude, Int.natAbs_natCast, Nat.add_mul_div_left _ _ (hr.trans hrk),
    Nat.add_mul_mod_self_left, Nat.div_eq_of_lt hrk, Nat.mod_eq_of_lt hrk, zero_add]

/-- The discarded part seen from the other neighbour. -/
def complementPart : TruncatedPart → TruncatedPart
  | .zero => .zero
  | .lessThanHalfNonzero => .greaterThanHalf
  | .equalToHalf => .equalToHalf
  | .greaterThanHalf => .lessThanHalfNonzero

theorem classify_complement {r k : Nat} (hr : 0 < r) (hrk : r < k) :
    classify (k - r) k = complementPart (classify r k) := by
  cases h : classify r k with
  | zero =>
    rw [classify_eq_zero_iff] at h
    omega
  | lessThanHalfNonzero =>
    rw [classify_eq_less_iff] at h
    exact (classify_eq_greater_iff ..).mpr (by omega)
  | equalToHalf =>
    rw [classify_eq_half_iff] at h
    exact (classify_eq_half_iff ..).mpr (by omega)
  | greaterThanHalf =>
    rw [classify_eq_greater_iff] at h
    exact (classify_eq_less_iff ..).mpr (by omega)

/-- R181, the inverted mode: away from zero on one side of zero is towards zero on the other, and HALF_EVEN chooses the
even neighbour whichever it starts from. -/
theorem increment_acrossZeroMode (rm : RoundingMode) (σ : Sign) (t : Int) {part : TruncatedPart}
    (hpart : part ≠ .zero) :
    increment (acrossZeroMode rm) σ t part =
      (increment rm (oppositeSign σ) (t + signValue σ) (complementPart part)).map (signValue σ + ·) := by
  cases rm with
  | halfEven =>
    have hparity : (t + signValue σ) % 2 = 1 ↔ ¬t % 2 = 1 := by
      have := signValue_eq_or σ
      omega
    cases part with
    | zero => exact absurd rfl hpart
    | lessThanHalfNonzero | greaterThanHalf => cases σ <;> rfl
    | equalToHalf =>
      simp only [acrossZeroMode, complementPart, increment_halfEven, hparity]
      by_cases hodd : t % 2 = 1
      · simp [hodd, Except.map]
      · simp [hodd, Except.map, signValue_oppositeSign]
  | up | down | ceiling | floor | halfUp | halfDown | unnecessary => cases part <;> cases σ <;> trivial

/-- R181, the inverted mode on a truncated value. -/
theorem addIncrement_acrossZeroMode (rm : RoundingMode) (σ : Sign) (t : Int) {part : TruncatedPart}
    (hpart : part ≠ .zero) :
    addIncrement (acrossZeroMode rm) σ t part =
      addIncrement rm (oppositeSign σ) (t + signValue σ) (complementPart part) := by
  unfold addIncrement
  rw [increment_acrossZeroMode rm σ t hpart]
  cases increment rm (oppositeSign σ) (t + signValue σ) (complementPart part) with
  | ok j => exact congrArg Except.ok (add_assoc t _ j).symm
  | error e => rfl

theorem signValue_mul_natAbs_of_ne {v : Int} (hv : v ≠ 0) : signValue (signOfInt v) * (v.natAbs : Int) = v := by
  rw [signValue_signOfInt_of_ne v hv, Int.sign_mul_natAbs]

section Sum

variable (rm : RoundingMode) {t₀ bf : Int} {k : Nat}

/-- R181, one sign: `t0` is the truncation of the sum. -/
theorem roundQuotient_of_same_sign (hbf : bf ≠ 0) (hlt : bf.natAbs < k) (hsign : t₀ = 0 ∨ (t₀ < 0 ↔ bf < 0)) :
    roundQuotient rm (t₀ * k + bf) k = addIncrement rm (signOfInt bf) t₀ (classify bf.natAbs k) := by
  have ht : signValue (signOfInt bf) * (t₀.natAbs : Int) = t₀ := by
    rw [signValue_signOfInt]
    split <;> omega
  have hparts := roundQuotient_of_parts rm (signOfInt bf) (m := t₀.natAbs) (Int.natAbs_pos.mpr hbf) hlt
  rwa [mul_add, ← mul_assoc, ht, signValue_mul_natAbs_of_ne hbf] at hparts

/-- R181, opposite signs: the truncation of the sum is the neighbour of `t0` nearer to zero. -/
theorem roundQuotient_of_opposite_sign (hbf : bf ≠ 0) (hlt : bf.natAbs < k)
    (hsign : ¬(t₀ = 0 ∨ (t₀ < 0 ↔ bf < 0))) :
    roundQuotient rm (t₀ * k + bf) k =
      addIncrement (acrossZeroMode rm) (signOfInt bf) t₀ (classify bf.natAbs k) := by
  have hpos := Int.natAbs_pos.mpr hbf
  have ht : signValue (oppositeSign (signOfInt bf)) * ((t₀.natAbs - 1 : Nat) : Int) =
      t₀ + signValue (signOfInt bf) := by
    rw [signValue_oppositeSign, signValue_signOfInt]
    split <;> omega
  have hparts := roundQuotient_of_parts rm (oppositeSign (signOfInt bf)) (m := t₀.natAbs - 1)
    (Nat.sub_pos_of_lt hlt) (Nat.sub_lt (hpos.trans hlt) hpos)
  have hnum : (t₀ + signValue (signOfInt bf)) * k +
      signValue (oppositeSign (signOfInt bf)) * ((k - bf.natAbs : Nat) : Int) = t₀ * k + bf := by
    rw [Int.ofNat_sub hlt.le, signValue_oppositeSign]
    linear_combination signValue_mul_natAbs_of_ne hbf
  have hpart : classify bf.natAbs k ≠ .zero := by
    rw [ne_eq, classify_eq_zero_iff]
    exact hpos.ne'
  rw [addIncrement_acrossZeroMode rm _ t₀ hpart, ← classify_complement hpos hlt]
  rwa [mul_add, ← mul_assoc, ht, hnum] at hparts

end Sum

/-- Settles O59. The operands need no range: the split of `b` by `k` is exact on unbounded integers. -/
theorem addingAcrossZeroIsTheSum : Obligations.AddingAcrossZeroIsTheSum := by
  intro a b sc sc2 rm c hsc
  have hk : 0 < 10 ^ (sc2 - sc) := Nat.pow_pos (by decide)
  have hcast : (10 : Int) ^ (sc2 - sc) = (10 ^ (sc2 - sc) : Nat) := by push_cast; rfl
  rw [addScaled_of_lt a b rm c hsc, hcast, addScaledAcross]
  generalize 10 ^ (sc2 - sc) = k at hk
  have hdigits : b - b.tdiv k * k = b.tmod k := by rw [Int.tmod_def, mul_comm]
  have hsum : a * k + b = (a + b.tdiv k) * k + b.tmod k := by rw [← hdigits]; ring
  have hlt : (b.tmod k).natAbs < k := by
    rw [Int.natAbs_tmod]
    exact Nat.mod_lt _ hk
  simp only [hdigits, roundThenDeliver, hsum]
  split_ifs with hbf hsign
  · have hk' : (k : Int) ≠ 0 := Int.natCast_ne_zero.mpr hk.ne'
    rw [hbf, add_zero, roundQuotient_of_dvd rm _ _ hk' (dvd_mul_left _ _), Int.mul_ediv_cancel _ hk',
      deliverRounded_ok]
  · rw [roundQuotient_of_same_sign rm hbf hlt hsign]
  · rw [roundQuotient_of_opposite_sign rm hbf hlt hsign]

end Sys2Proof.Proofs

/-! ### A command raises only what its row lists (60_exceptions.md R192) -/

namespace Sys2Proof.Proofs

open Sys2Proof.Machine Sys2Proof.Laws

/-- Settles O16: the response is the exception's code only when the command's result is that exception, and the result
is one of the row. -/
theorem commandsRaiseOnlyWhatTheTableLists : Obligations.CommandsRaiseOnlyWhatTheTableLists := by
  intro i s t e h hreply
  rw [exec_eq_conclude, Host.Outcome.next.injEq] at h
  subst h
  have raised : resultOf s.reg i = .error e := (conclude_reply_code s (encode i) (destOf i) _ e).mp hreply
  exact List.contains_iff_mem.mpr (raisesWithin_resultOf i s.reg e raised)

end Sys2Proof.Proofs

/-! ### Every host operation finishes (20_memory.md R46, 70_reset_and_hazards.md R217) -/

namespace Sys2Proof.Proofs

open Sys2Proof.Machine Sys2Proof.Laws

/-- No host operation touches the operations that wait behind it. -/
theorem perform_pending (op : HostOp) (s t : State) (h : perform op s = .next t) : t.pending = s.pending := by
  cases op with
  | cmd w =>
    obtain ⟨i, v, -, rfl⟩ | ⟨e, -, rfl⟩ := issueCommand_cases w s t h
    · exact complete_pending s (destOf i) v
    · exact raise_pending s e w
  | wr | rd | rds | clrf | reset =>
    obtain rfl := Host.Outcome.next.inj h
    rfl

/-- A step answers a next state with the first waiting operation, if there is one, taken off. -/
theorem step_next_pending (s : State) : ∃ t, step s = .next t ∧ t.pending = s.pending.tail := by
  cases hp : s.pending with
  | nil => exact ⟨s, step_idle s hp, hp⟩
  | cons op rest =>
    obtain ⟨t, ht⟩ := perform_next op { s with pending := rest }
    exact ⟨t, (step_perform s op rest hp).trans ht, perform_pending op _ t ht⟩

/-- A run whose first step answers a next state goes on from there. -/
theorem run_succ_of_step (n : Nat) (s t : State) (h : step s = .next t) :
    Sys2Proof.core.run (n + 1) s = Sys2Proof.core.run n t := by
  have hcore : Sys2Proof.core.step s = .next t := h
  simp only [Host.Core.run, hcore]

/-- Settles O12, by induction on the number of steps. -/
theorem everyHostOperationFinishes : Obligations.EveryHostOperationFinishes := by
  intro n
  induction n with
  | zero => exact fun s => ⟨s, rfl, rfl⟩
  | succ n ih =>
    intro s
    obtain ⟨s', hstep, hs'⟩ := step_next_pending s
    obtain ⟨t, hrun, ht⟩ := ih s'
    refine ⟨t, (run_succ_of_step n s s' hstep).trans hrun, ?_⟩
    rw [ht, hs', List.drop_tail]

end Sys2Proof.Proofs
